-- ==== Sys2Proof/Word.lean ====
section
/-! DEFINITION. The widths of the block (00_scope.md section 5): `u8`, `u16`, `u24`, and the port address. -/

namespace Sys2Proof

/-- `u8`: one register byte, one data byte (`DATA_W` = 8). -/
abbrev Byte := BitVec 8

/-- `u16`: a DMA controller's address, a word of data, the word-wide bus (`BUS_W` = 16). -/
abbrev Word := BitVec 16

/-- `u24`: a physical address of the DMA path and an A20 mask (`PHYS_W` = 24). -/
abbrev PhysAddr := BitVec 24

/-- A port address as the decoder sees it (`PORT_W` = 16, 20_memory.md R50). -/
abbrev Port := BitVec 16

end Sys2Proof
end

