-- ==== Sys2Proof/Syntax.lean ====
section
/-! DEFINITION. The operations the block reacts to (30_encoding.md R80), one constructor per mnemonic of the table, and
the form in which the environment presents an operation (R81 to R85). -/

namespace Sys2Proof

/-- The on-board interrupt sources of 43_irq_cascade.md R185. -/
inductive OnboardSource
  /-- The timer's output 0. -/
  | timer0
  /-- The real-time clock's interrupt line. -/
  | clock
  /-- The keyboard controller's interrupt. -/
  | keyboard
deriving DecidableEq, Repr

/-- The operation set of R80. A port operation carries the port the CPU named; `d` and `w` are write data, `l` a line's
level (`true` is 1), `c` and `n` expansion-bus channels or controller inputs, `j` a channel within the secondary
controller, `a` a controller-relative address. What a type cannot say of an operand is in `Instr.wf`. -/
inductive Instr
  /-- `IOR.DMA1`, ports 0x00-0x1F, R100. -/
  | iorDma1 (p : Port)
  /-- `IOW.DMA1`, R101. -/
  | iowDma1 (p : Port) (d : Byte)
  /-- `IOR.PIC1`, ports 0x20-0x3F, R102. -/
  | iorPic1 (p : Port)
  /-- `IOW.PIC1`, R103. -/
  | iowPic1 (p : Port) (d : Byte)
  /-- `IOR.PIT`, ports 0x40-0x5F, R104. -/
  | iorPit (p : Port)
  /-- `IOW.PIT`, R105. -/
  | iowPit (p : Port) (d : Byte)
  /-- `IOR.KBD_DATA`, port 0x60, R106. -/
  | iorKbdData
  /-- `IOW.KBD_DATA`, port 0x60, R107. -/
  | iowKbdData (d : Byte)
  /-- `IOR.PORTB`, port 0x61, R193. -/
  | iorPortb
  /-- `IOW.PORTB`, port 0x61, R200. -/
  | iowPortb (d : Byte)
  /-- `IOR.KBD_STATUS`, port 0x64, R108. -/
  | iorKbdStatus
  /-- `IOW.KBD_CMD`, port 0x64, R109. -/
  | iowKbdCmd (d : Byte)
  /-- `IOR.RTC`, ports 0x70-0x7F, R195. -/
  | iorRtc (p : Port)
  /-- `IOW.RTC0`, port 0x70, R190. -/
  | iowRtc0 (d : Byte)
  /-- `IOW.RTC`, ports 0x71-0x7F, R191. -/
  | iowRtc (p : Port) (d : Byte)
  /-- `IOR.PAGE.SEL`, ports 0x80-0x9F with offset 1, 2, 3 or 7 in the block, R130. -/
  | iorPageSel (p : Port)
  /-- `IOW.PAGE.SEL`, R131. -/
  | iowPageSel (p : Port) (d : Byte)
  /-- `IOR.PAGE.GEN`, the other ports of 0x80-0x9F, R132. -/
  | iorPageGen (p : Port)
  /-- `IOW.PAGE.GEN`, R133. -/
  | iowPageGen (p : Port) (d : Byte)
  /-- `IOR.PIC2`, ports 0xA0-0xBF, R110. -/
  | iorPic2 (p : Port)
  /-- `IOW.PIC2`, R111. -/
  | iowPic2 (p : Port) (d : Byte)
  /-- `IOR.DMA2`, even ports 0xC0-0xDE, R112. -/
  | iorDma2 (p : Port)
  /-- `IOW.DMA2`, R113. -/
  | iowDma2 (p : Port) (d : Byte)
  /-- `IOR.UNMAPPED`, ports 0x62, 0x63, 0x65-0x6F, odd 0xC1-0xDF, R114. -/
  | iorUnmapped (p : Port)
  /-- `IOW.UNMAPPED`, R115. -/
  | iowUnmapped (p : Port) (d : Byte)
  /-- `IOR.NOCLAIM`, ports 0xE0-0xFFFF, R116. -/
  | iorNoclaim (p : Port)
  /-- `IOW.NOCLAIM`, R116. -/
  | iowNoclaim (p : Port) (d : Byte)
  /-- `IOR16`, R117. -/
  | ior16 (p : Port)
  /-- `IOW16`, R118. -/
  | iow16 (p : Port) (w : Word)
  /-- `DMARD8`, R134. -/
  | dmard8 (a : Word)
  /-- `DMAWR8`, R135. -/
  | dmawr8 (a : Word) (d : Byte)
  /-- `DMARD16`, R136. -/
  | dmard16 (a : Word)
  /-- `DMAWR16`, R137. -/
  | dmawr16 (a : Word) (d : Byte)
  /-- `HRQ1`, R150. -/
  | hrq1 (l : Bool)
  /-- `HRQ2`, R151. -/
  | hrq2 (l : Bool)
  /-- `DACK`, channels 0 to 3 and 5 to 7, R153. -/
  | dack (c : Fin 8) (l : Bool)
  /-- `DACK4`, the cascade link, R154. -/
  | dack4 (l : Bool)
  /-- `EOP1`, R155. -/
  | eop1 (l : Bool)
  /-- `EOP2`, R156. -/
  | eop2 (l : Bool)
  /-- `DIOR8`, R157. -/
  | dior8 (c : Fin 4)
  /-- `DIOW8`, R158. -/
  | diow8 (c : Fin 4) (d : Byte)
  /-- `DIOR16`, R159. -/
  | dior16 (j : Fin 4)
  /-- `DIOW16`, R160. -/
  | diow16 (j : Fin 4) (d : Byte)
  /-- `DRQ`, lines 0 to 3 and 5 to 7, R162. -/
  | drq (n : Fin 8) (l : Bool)
  /-- `INT2`, R180. -/
  | int2 (l : Bool)
  /-- `INT1`, R181. -/
  | int1 (l : Bool)
  /-- `SLAVEACK`, R182. -/
  | slaveack (n : Fin 8)
  /-- `IRQ`, an expansion-bus line of the domain of `IRQ_ROUTE`, R184. -/
  | irq (n : Nat) (l : Bool)
  /-- `OBIRQ`, R185. -/
  | obirq (src : OnboardSource) (l : Bool)
  /-- `OUT2`, R201. -/
  | out2 (l : Bool)
  /-- `START`, R210. -/
  | start
  /-- `A20MASK`, R212. -/
  | a20mask (l : Bool)
  /-- `STOP`, R213. -/
  | stop
  /-- `RESET`, 70_reset_and_hazards.md R250. -/
  | reset
deriving DecidableEq, Repr

/-- The direction of a port access, `dir` of R81. -/
inductive Dir
  | read
  | write
deriving DecidableEq, Repr

/-- The width of a port access (20_memory.md R50, R121). -/
inductive Width
  | byte
  | word
deriving DecidableEq, Repr

/-- The event names of R80: "event operations are selected by their name alone" (R87). -/
inductive EventName
  | dmard8 | dmawr8 | dmard16 | dmawr16
  | hrq1 | hrq2 | dack | dack4 | eop1 | eop2
  | dior8 | diow8 | dior16 | diow16 | drq
  | int2 | int1 | slaveack | irq | obirq
  | out2 | start | a20mask | stop | reset
deriving DecidableEq, Repr

/-- What selects an operation: direction and width for a port access (R81, R82), the name for an event (R80). -/
inductive Selector
  | port (dir : Dir) (width : Width)
  | event (name : EventName)
  /-- Bits beside a port address that are no direction and no width of R81 or R82: no operation (log 1). -/
  | unassigned
deriving DecidableEq, Repr

/-- One operation as the environment presents it, before it is decoded. `addr` is the port address, or the
controller-relative address or line index of an event; `data` is the data lines, or the level (log 1). -/
structure Frame where
  sel  : Selector
  addr : Word
  data : Word
deriving DecidableEq, Repr

/-- Why a presentation is no operation (00_scope.md R10, D35). -/
inductive DecodeError
  /-- The selector is `Selector.unassigned`. -/
  | noSelector
  /-- A line's level is neither 0 nor 1. -/
  | level
  /-- A data byte is wider than 8 bits. -/
  | dataByte
  /-- A channel or controller input is outside its range. -/
  | index
  /-- An on-board source that is none of the three of R185. -/
  | source
  /-- A lane the operation's format (R81 to R85) does not have is not zero. -/
  | strayOperand
deriving DecidableEq, Repr

end Sys2Proof
end

