-- ==== Sys2Proof/WellFormed.lean ====
section
/-! DEFINITION. The operand ranges of 30_encoding.md R80 that the operand types do not say by themselves: an operation
outside them "cannot be written" (00_scope.md R10). -/

namespace Sys2Proof

/-- Ports `lo` to `hi`, both ends included. -/
def Port.within (p : Port) (lo hi : Nat) : Bool := decide (lo ≤ p.toNat) && decide (p.toNat ≤ hi)

/-- The offset within an eight-port block is one of the four that select a page register (41_dma_page_xlat.md R139). -/
def Port.selectsPage (p : Port) : Bool := decide (p.toNat % 8 ∈ [1, 2, 3, 7])

/-- The ports inside 0x00 to 0xDF that no row of the port map binds (20_memory.md R58, 40_port_decoder.md R114). -/
def Port.unbound (p : Port) : Bool :=
  p.within 0x62 0x63 || p.within 0x65 0x6F || (p.within 0xC0 0xDF && decide (p.toNat % 2 = 1))

/-- The operands are in the ranges of R80's table. -/
def Instr.wf : Instr → Bool
  | .iorDma1 p | .iowDma1 p _ => p.within 0x00 0x1F
  | .iorPic1 p | .iowPic1 p _ => p.within 0x20 0x3F
  | .iorPit p | .iowPit p _ => p.within 0x40 0x5F
  | .iorRtc p => p.within 0x70 0x7F
  | .iowRtc p _ => p.within 0x71 0x7F
  | .iorPageSel p | .iowPageSel p _ => p.within 0x80 0x9F && p.selectsPage
  | .iorPageGen p | .iowPageGen p _ => p.within 0x80 0x9F && !p.selectsPage
  | .iorPic2 p | .iowPic2 p _ => p.within 0xA0 0xBF
  | .iorDma2 p | .iowDma2 p _ => p.within 0xC0 0xDF && decide (p.toNat % 2 = 0)
  | .iorUnmapped p | .iowUnmapped p _ => p.unbound
  | .iorNoclaim p | .iowNoclaim p _ => p.within 0xE0 0xFFFF
  | .dack c _ => decide (c ≠ 4)
  | .drq n _ => decide (n ≠ 4)
  | .irq n _ => decide (n < 0x10000)
  | .iorKbdData | .iowKbdData _ | .iorPortb | .iowPortb _ | .iorKbdStatus | .iowKbdCmd _ | .iowRtc0 _ => true
  | .ior16 _ | .iow16 _ _ | .dmard8 _ | .dmawr8 _ _ | .dmard16 _ | .dmawr16 _ _ => true
  | .hrq1 _ | .hrq2 _ | .dack4 _ | .eop1 _ | .eop2 _ => true
  | .dior8 _ | .diow8 _ _ | .dior16 _ | .diow16 _ _ => true
  | .int2 _ | .int1 _ | .slaveack _ | .obirq _ _ | .out2 _ => true
  | .start | .a20mask _ | .stop | .reset => true

end Sys2Proof
end

