-- ==== Sys2Proof/Decode.lean ====
section
/-! DEFINITION. The decode map (30_encoding.md R87), the formats of events (R83 to R85), the encoder, and the numbering of
opcode_table.json. Decoding reads no state (R88). -/

namespace Sys2Proof

/-! ## Port decode -/

/-- What a port decodes to before the direction is looked at. Only the direction changes how a port decodes (R90), and
only for ports 0x64 and 0x70. -/
inductive PortClass
  | dma1 | pic1 | pit | kbdData | portb
  /-- Port 0x64: status when read, command when written. -/
  | kbdControl
  | unmapped
  /-- Port 0x70: the clock's offset 0, intercepted when written. -/
  | rtcSelect
  | rtc | pageSel | pageGen | pic2 | dma2 | noclaim
deriving DecidableEq, Repr

/-- The ladder of R87, tests applied top to bottom. -/
def portClass (p : Port) : PortClass :=
  if p.extractLsb' 8 8 ≠ 0 ∨ 0xE0 ≤ p then .noclaim
  else if p ≤ 0x1F then .dma1
  else if p ≤ 0x3F then .pic1
  else if p ≤ 0x5F then .pit
  else if p = 0x60 then .kbdData
  else if p = 0x61 then .portb
  else if p = 0x64 then .kbdControl
  else if p ≤ 0x6F then .unmapped
  else if p = 0x70 then .rtcSelect
  else if p ≤ 0x7F then .rtc
  else if p ≤ 0x9F ∧ p.extractLsb' 0 3 ∈ [1#3, 2#3, 3#3, 7#3] then .pageSel
  else if p ≤ 0x9F then .pageGen
  else if p ≤ 0xBF then .pic2
  else if p.getLsbD 0 = false then .dma2
  else .unmapped

/-- `Decode(read, p)` of R87. -/
def decodeRead (p : Port) : Instr :=
  match portClass p with
  | .dma1 => .iorDma1 p
  | .pic1 => .iorPic1 p
  | .pit => .iorPit p
  | .kbdData => .iorKbdData
  | .portb => .iorPortb
  | .kbdControl => .iorKbdStatus
  | .unmapped => .iorUnmapped p
  | .rtcSelect => .iorRtc p
  | .rtc => .iorRtc p
  | .pageSel => .iorPageSel p
  | .pageGen => .iorPageGen p
  | .pic2 => .iorPic2 p
  | .dma2 => .iorDma2 p
  | .noclaim => .iorNoclaim p

/-- `Decode(write, p)` of R87, with the byte written. -/
def decodeWrite (p : Port) (d : Byte) : Instr :=
  match portClass p with
  | .dma1 => .iowDma1 p d
  | .pic1 => .iowPic1 p d
  | .pit => .iowPit p d
  | .kbdData => .iowKbdData d
  | .portb => .iowPortb d
  | .kbdControl => .iowKbdCmd d
  | .unmapped => .iowUnmapped p d
  | .rtcSelect => .iowRtc0 d
  | .rtc => .iowRtc p d
  | .pageSel => .iowPageSel p d
  | .pageGen => .iowPageGen p d
  | .pic2 => .iowPic2 p d
  | .dma2 => .iowDma2 p d
  | .noclaim => .iowNoclaim p d

/-! ## Operand fields of a presentation -/

/-- A data byte: bits 7:0 of the data lines, nothing above (R81). -/
def byteField (w : Word) : Except DecodeError Byte :=
  if w < 0x100 then .ok (w.setWidth 8) else .error .dataByte

/-- A level: one bit (R83). -/
def levelField (w : Word) : Except DecodeError Bool :=
  if w = 0 then .ok false else if w = 1 then .ok true else .error .level

/-- An expansion-bus channel, or an input of an interrupt controller: 0 to 7 (20_memory.md R52). -/
def indexField (w : Word) : Except DecodeError (Fin 8) :=
  if h : w.toNat < 8 then .ok ⟨w.toNat, h⟩ else .error .index

/-- A channel within its controller: 0 to 3 (R84). -/
def channelField (w : Word) : Except DecodeError (Fin 4) :=
  if h : w.toNat < 4 then .ok ⟨w.toNat, h⟩ else .error .index

/-- The on-board source of an `OBIRQ`, numbered in the order R185 lists them (log 1). -/
def sourceField (w : Word) : Except DecodeError OnboardSource :=
  if w = 0 then .ok .timer0 else if w = 1 then .ok .clock else if w = 2 then .ok .keyboard else .error .source

/-- A lane the format does not have: nothing stands on it. -/
def emptyField (w : Word) : Except DecodeError Unit :=
  if w = 0 then .ok () else .error .strayOperand

/-! ## Formats of events (R83, R84, R85) -/

/-- Format LINE: a level. -/
def lineFormat (k : Bool → Instr) (addr data : Word) : Except DecodeError Instr := do
  emptyField addr
  return k (← levelField data)

/-- Format XFER-M, read: a controller-relative address. -/
def transferReadFormat (k : Word → Instr) (addr data : Word) : Except DecodeError Instr := do
  emptyField data
  return k addr

/-- Format XFER-M, write: an address and a byte. -/
def transferWriteFormat (k : Word → Byte → Instr) (addr data : Word) : Except DecodeError Instr := do
  return k addr (← byteField data)

/-- Format XFER-P, read: a channel within the controller. -/
def peripheralReadFormat (k : Fin 4 → Instr) (addr data : Word) : Except DecodeError Instr := do
  emptyField data
  return k (← channelField addr)

/-- Format XFER-P, write: a channel within the controller and a byte. -/
def peripheralWriteFormat (k : Fin 4 → Byte → Instr) (addr data : Word) : Except DecodeError Instr := do
  let c ← channelField addr
  return k c (← byteField data)

/-- Format NULL: no fields. -/
def nullFormat (i : Instr) (addr data : Word) : Except DecodeError Instr := do
  emptyField addr
  emptyField data
  return i

/-- The operation a named event stands for. A `DACK` with channel 4 "is `DACK4`" (R89); a `DRQ` has no line 4 (R80). -/
def decodeEvent (e : EventName) (addr data : Word) : Except DecodeError Instr :=
  match e with
  | .dmard8 => transferReadFormat .dmard8 addr data
  | .dmawr8 => transferWriteFormat .dmawr8 addr data
  | .dmard16 => transferReadFormat .dmard16 addr data
  | .dmawr16 => transferWriteFormat .dmawr16 addr data
  | .hrq1 => lineFormat .hrq1 addr data
  | .hrq2 => lineFormat .hrq2 addr data
  | .dack => do
    let c ← indexField addr
    let l ← levelField data
    return if c = 4 then .dack4 l else .dack c l
  | .dack4 => lineFormat .dack4 addr data
  | .eop1 => lineFormat .eop1 addr data
  | .eop2 => lineFormat .eop2 addr data
  | .dior8 => peripheralReadFormat .dior8 addr data
  | .diow8 => peripheralWriteFormat .diow8 addr data
  | .dior16 => peripheralReadFormat .dior16 addr data
  | .diow16 => peripheralWriteFormat .diow16 addr data
  | .drq => do
    let n ← indexField addr
    let l ← levelField data
    if n = 4 then .error .index else return .drq n l
  | .int2 => lineFormat .int2 addr data
  | .int1 => lineFormat .int1 addr data
  | .slaveack => do
    emptyField data
    return .slaveack (← indexField addr)
  | .irq => do
    return .irq addr.toNat (← levelField data)
  | .obirq => do
    let src ← sourceField addr
    return .obirq src (← levelField data)
  | .out2 => lineFormat .out2 addr data
  | .start => nullFormat .start addr data
  | .a20mask => lineFormat .a20mask addr data
  | .stop => nullFormat .stop addr data
  | .reset => nullFormat .reset addr data

/-- The operation a presentation stands for, or the name of what is wrong with it. Total, and it reads no state (R88).
Every port address is an operation in either direction (R89). -/
def decode (f : Frame) : Except DecodeError Instr :=
  match f.sel with
  | .port .read .byte => do
    emptyField f.data
    return decodeRead f.addr
  | .port .write .byte => do
    return decodeWrite f.addr (← byteField f.data)
  | .port .read .word => do
    emptyField f.data
    return .ior16 f.addr
  | .port .write .word => .ok (.iow16 f.addr f.data)
  | .event e => decodeEvent e f.addr f.data
  | .unassigned => .error .noSelector

/-! ## Encoding -/

/-- A level on the data lines. -/
def levelWord (l : Bool) : Word := if l then 1 else 0

/-- The number of an on-board source, as `sourceField` reads it. -/
def sourceWord : OnboardSource → Word
  | .timer0 => 0
  | .clock => 1
  | .keyboard => 2

/-- A byte read of a port: direction and port address (R81). -/
def readFrame (p : Port) : Frame := ⟨.port .read .byte, p, 0⟩

/-- A byte write of a port: direction, port address, data byte (R81). -/
def writeFrame (p : Port) (d : Byte) : Frame := ⟨.port .write .byte, p, d.setWidth 16⟩

/-- An event with an index or address and a level (R83). -/
def eventFrame (e : EventName) (addr data : Word) : Frame := ⟨.event e, addr, data⟩

/-- The presentation of an operation, from R80's table and R81 to R85. -/
def encode : Instr → Frame
  | .iorDma1 p | .iorPic1 p | .iorPit p | .iorRtc p | .iorPageSel p | .iorPageGen p => readFrame p
  | .iorPic2 p | .iorDma2 p | .iorUnmapped p | .iorNoclaim p => readFrame p
  | .iowDma1 p d | .iowPic1 p d | .iowPit p d | .iowRtc p d | .iowPageSel p d | .iowPageGen p d => writeFrame p d
  | .iowPic2 p d | .iowDma2 p d | .iowUnmapped p d | .iowNoclaim p d => writeFrame p d
  | .iorKbdData => readFrame 0x60
  | .iowKbdData d => writeFrame 0x60 d
  | .iorPortb => readFrame 0x61
  | .iowPortb d => writeFrame 0x61 d
  | .iorKbdStatus => readFrame 0x64
  | .iowKbdCmd d => writeFrame 0x64 d
  | .iowRtc0 d => writeFrame 0x70 d
  | .ior16 p => ⟨.port .read .word, p, 0⟩
  | .iow16 p w => ⟨.port .write .word, p, w⟩
  | .dmard8 a => eventFrame .dmard8 a 0
  | .dmawr8 a d => eventFrame .dmawr8 a (d.setWidth 16)
  | .dmard16 a => eventFrame .dmard16 a 0
  | .dmawr16 a d => eventFrame .dmawr16 a (d.setWidth 16)
  | .hrq1 l => eventFrame .hrq1 0 (levelWord l)
  | .hrq2 l => eventFrame .hrq2 0 (levelWord l)
  | .dack c l => eventFrame .dack (BitVec.ofNat 16 c.val) (levelWord l)
  | .dack4 l => eventFrame .dack4 0 (levelWord l)
  | .eop1 l => eventFrame .eop1 0 (levelWord l)
  | .eop2 l => eventFrame .eop2 0 (levelWord l)
  | .dior8 c => eventFrame .dior8 (BitVec.ofNat 16 c.val) 0
  | .diow8 c d => eventFrame .diow8 (BitVec.ofNat 16 c.val) (d.setWidth 16)
  | .dior16 j => eventFrame .dior16 (BitVec.ofNat 16 j.val) 0
  | .diow16 j d => eventFrame .diow16 (BitVec.ofNat 16 j.val) (d.setWidth 16)
  | .drq n l => eventFrame .drq (BitVec.ofNat 16 n.val) (levelWord l)
  | .int2 l => eventFrame .int2 0 (levelWord l)
  | .int1 l => eventFrame .int1 0 (levelWord l)
  | .slaveack n => eventFrame .slaveack (BitVec.ofNat 16 n.val) 0
  | .irq n l => eventFrame .irq (BitVec.ofNat 16 n) (levelWord l)
  | .obirq src l => eventFrame .obirq (sourceWord src) (levelWord l)
  | .out2 l => eventFrame .out2 0 (levelWord l)
  | .start => eventFrame .start 0 0
  | .a20mask l => eventFrame .a20mask 0 (levelWord l)
  | .stop => eventFrame .stop 0 0
  | .reset => eventFrame .reset 0 0

/-! ## The numbering of opcode_table.json -/

/-- The bits beside the port address and the data: bit 0 is `dir` (0 read, 1 write, R81), bit 1 the width (0 byte,
1 word). The places beside the address are the model's own (log 1). -/
def selectorOfBits (n : Nat) : Selector :=
  if n = 0 then .port .read .byte
  else if n = 1 then .port .write .byte
  else if n = 2 then .port .read .word
  else if n = 3 then .port .write .word
  else .unassigned

/-- A port access as one number: bits 15:0 the port address (as the table numbers it), bits 31:16 the data lines, bits 32
and above the direction and width. Bits from `nbits` up are 0. -/
def frameOfBits (nbits w : Nat) : Frame :=
  let v := w % 2 ^ nbits
  ⟨selectorOfBits (v / 2 ^ 32), BitVec.ofNat 16 v, BitVec.ofNat 16 (v / 2 ^ 16)⟩

/-- The operation the decoder reads from a table row's word. -/
def decodeTableWord (nbits w : Nat) : Option Instr :=
  match decode (frameOfBits nbits w) with
  | .ok i => some i
  | .error _ => none

end Sys2Proof
end

