-- ==== Sys2Proof/Machine/Params.lean ====
section
/-! DEFINITION. The implementation parameters of 00_scope.md R9 whose value the spec gives. -/

namespace Sys2Proof.Machine

/-- `UNMAPPED_READ` (R9, D2; log 14). -/
def unmappedRead : Byte := 0xFF

/-- `IDLE_DATA`: "all bits set" (R9, 41_dma_page_xlat.md R134). -/
def idleData : Byte := 0xFF

/-- `WORD_HIGH_MASK` (R9, D9; log 19). -/
def wordHighMask : PhysAddr := 0xFE0000

/-- `PAGE_SEL`: "preserve as an explicit lookup table" (41_dma_page_xlat.md R139, D6; log 17). `none` for the offsets that
select no page register. -/
def pageSel (k : BitVec 3) : Option (Fin 4) :=
  if k = 1 then some 2
  else if k = 2 then some 3
  else if k = 3 then some 1
  else if k = 7 then some 0
  else none

/-- `CASCADE_CH` (R9, D13; log 20). -/
def cascadeCh : Fin 8 := 4

/-- `CASCADE_IR` (R9, 43_irq_cascade.md R180). -/
def cascadeIr : Fin 8 := 2

/-- `ACK_DEFAULT` (R9, D17; log 24). -/
def ackDefault : Byte := 0x00

/-- `DACK_ACTIVE`: the level of an acknowledge line that means granted (R9, D14; log 22). -/
def dackActive : Bool := false

/-- `PORTB_CLEAR` (R9, D22; log 27). -/
def portbClear : Byte := 0x30

/-- `PORTB_TOGGLE_BIT` (R9, D22; log 27). -/
def portbToggleBit : Nat := 4

/-- `PORTB_OUT2_BIT` (R9, D22; log 27). -/
def portbOut2Bit : Nat := 5

/-- `A20_MASK_ON` (R9, 46_lifecycle.md R212). -/
def a20MaskOn : PhysAddr := 0xFFFFFF

/-- `A20_MASK_OFF` (R9, R212). -/
def a20MaskOff : PhysAddr := 0xEFFFFF

end Sys2Proof.Machine
end

