-- ==== Sys2Proof/Config.lean ====
section
/-! DEFINITION. What an implementation of the block fixes and the spec leaves OPEN (00_scope.md R9): the interrupt routing
tables and the CPU's A20 capability; and the free values no one fixes. -/

namespace Sys2Proof

/-- The two interrupt controllers. -/
inductive Pic
  | pic1
  | pic2
deriving DecidableEq, Repr, Inhabited

/-- One input of one interrupt controller (20_memory.md R52). -/
structure PicInput where
  ctl   : Pic
  input : Fin 8
deriving DecidableEq, Repr, Inhabited

/-- The parameters marked OPEN in R9, as plain data: "an argument of the model". -/
structure Board where
  /-- `CPU_HAS_A20_GATE`: the answer of the capability query of 46_lifecycle.md R211. -/
  cpuHasA20Gate : Bool
  /-- `IRQ_ROUTE` as a table of rows (bus line, input); a line with no row is outside its domain (43_irq_cascade.md R184). -/
  irqRows : List (Nat × PicInput)
  /-- `ONBOARD_IRQ_ROUTE` of timer output 0 (R185). -/
  timer0Route : PicInput
  /-- `ONBOARD_IRQ_ROUTE` of the clock interrupt. -/
  clockRoute : PicInput
  /-- `ONBOARD_IRQ_ROUTE` of the keyboard controller interrupt. -/
  keyboardRoute : PicInput
deriving DecidableEq, Repr, Inhabited

/-- The input that only the secondary controller's output may drive (R186): input 2 of `Pic1`. -/
def Board.cascadeInput : PicInput := ⟨.pic1, 2⟩

/-- The three on-board routes. -/
def Board.onboardInputs (b : Board) : List PicInput := [b.timer0Route, b.clockRoute, b.keyboardRoute]

/-- The constraints on the OPEN tables: line 2 goes to `Pic2` input 2 (R184 (a)), nothing goes to the cascade input
(R184 (b), R186), no on-board source shares an input with a bus line (R185). -/
def Board.wf (b : Board) : Bool :=
  decide (b.irqRows.lookup 2 = some ⟨.pic2, 2⟩)
    && b.irqRows.all (fun r => decide (r.2 ≠ Board.cascadeInput))
    && b.onboardInputs.all (fun t => decide (t ≠ Board.cascadeInput) && b.irqRows.all (fun r => decide (r.2 ≠ t)))

/-- A board that meets the constraints: it shows that there is one, and nothing else rests on it. -/
def Board.fallback : Board :=
  { cpuHasA20Gate := false
    irqRows := [(2, ⟨.pic2, 2⟩)]
    timer0Route := ⟨.pic1, 0⟩
    clockRoute := ⟨.pic2, 0⟩
    keyboardRoute := ⟨.pic1, 1⟩ }

/-- FREE VALUE (log 6): the parameters of the board at hand. Nothing can be proved of it. -/
opaque Config.openBoard : Board

/-- The board of State.reset: any board at all that meets the constraints. -/
def Config.bootBoard : Board := if Config.openBoard.wf then Config.openBoard else Board.fallback

/-- FREE VALUE (log 3): the answer of a collaborator to the n-th query whose answer was not lined up (00_scope.md R8, U9).
Nothing can be proved of it. -/
opaque Config.freeAnswer : Nat → Word

/-- FREE VALUE (log 8): what the rest of the platform does with the n-th read of a port the block does not decode: a byte
if another device answers, `none` if no device does (40_port_decoder.md R116). Nothing can be proved of it. -/
opaque Config.freePlatformRead : Nat → Option Byte

end Sys2Proof
end

