-- ==== Sys2Proof/Machine/State.lean ====
section
/-! DEFINITION. The state: the aggregate `S` of 10_state.md R20, the memory the DMA path reaches, the parameters and
the registration that surround the block, and the model's own inputs and outputs of a step. Plain data throughout. -/

namespace Sys2Proof.Machine

/-- `S.owner` (10_state.md R25): the document's -1 is `idle`. `owned 4` is a value of the type and never a state of the
machine (R34 (b); `State.Inv` of Safety). -/
inductive Owner
  | idle
  | owned (c : Fin 8)
deriving DecidableEq, Repr

/-- The calls the block makes on its collaborators (00_scope.md R8), queries included; a query's answer is not part of
the call. Offsets are those handed to the chip (30_encoding.md R86). -/
inductive Action
  | dma1Write (off : BitVec 5) (d : Byte)
  | dma1Hack (level : Bool)
  | dma1Dreq (ch : Fin 4) (level : Bool)
  | dma1Read (off : BitVec 5)
  | dma2Write (off : BitVec 4) (d : Byte)
  | dma2Hack (level : Bool)
  | dma2Dreq (ch : Fin 4) (level : Bool)
  | dma2Read (off : BitVec 4)
  | picWrite (ctl : Pic) (off : BitVec 5) (d : Byte)
  | picIr (dst : PicInput) (level : Bool)
  | picRead (ctl : Pic) (off : BitVec 5)
  | pic2Acknowledge
  | pitWrite (off : BitVec 5) (d : Byte)
  | pitGate2 (level : Bool)
  | pitRead (off : BitVec 5)
  | rtcWrite (off : BitVec 4) (d : Byte)
  | rtcRead (off : BitVec 4)
  | kbcDataW (d : Byte)
  | kbcCommandW (d : Byte)
  | kbcDataR
  | kbcStatusR
  | cpuHalt (level : Bool)
  | cpuIntr (level : Bool)
  | memWrite8 (a : PhysAddr) (d : Byte)
  | memWrite16 (a : PhysAddr) (w : Word)
  | memRead8 (a : PhysAddr)
  | memRead16 (a : PhysAddr)
  | busNmiState (b : Bool)
  | busEop (ch : Fin 8) (level : Bool)
  | busDackW (ch : Fin 4) (d : Byte)
  | busDack16W (ch : Fin 8) (w : Word)
  | busDackR (ch : Fin 4)
  | busDack16R (ch : Fin 8)
  | spkLevel (b : Bool)
  | envRefreshToggle
deriving DecidableEq, Repr

/-- The return value of an operation (00_scope.md R6; the "returns" column of 30_encoding.md R80). -/
inductive Ret
  | none
  | u8 (v : Byte)
  | u16 (v : Word)
  | u24 (v : PhysAddr)
deriving DecidableEq, Repr

/-- One thing the environment does to the machine. -/
inductive Input
  /-- An operation, as presented (30_encoding.md R81 to R85). -/
  | op (f : Frame)
  /-- A re-entrant call-back (70_reset_and_hazards.md R259): an event that a collaborator raises from inside a call the
  block makes. Behind a word port access it falls between the two halves (20_memory.md R56; log 34). Only an event can be
  one: port accesses are the CPU's. -/
  | callBack (name : EventName) (addr data : Word)
  /-- A byte of the physical memory changes without the block: the CPU's own store, or whatever else the platform does to
  its memory between two operations (20_memory.md R51, R66 (b); log 5). No operation of the block. -/
  | memStore (a : PhysAddr) (d : Byte)
deriving DecidableEq, Repr

/-- What is left of a word port access after its first half (20_memory.md R56): the other port, and the byte read from the
first or the byte to be written to the second. -/
inductive WordHalf
  | read (p : Port) (lo : Byte)
  | write (p : Port) (d : Byte)
deriving DecidableEq, Repr

/-- The bytes of the physical memory that have been written, addresses strictly rising (20_memory.md R51). An address not
listed has no value of its own: what a read of it gives is the environment's answer (log 5). -/
abbrev Memory := List Host.Cell

/-- The canonical form: addresses strictly rising and inside the 24-bit space. -/
abbrev Memory.wf (m : Memory) : Prop :=
  m.Pairwise (fun x y => x.1 < y.1) ∧ ∀ c ∈ m, c.1 < 2 ^ 24

/-- The whole configuration. The first twelve fields are `S` (10_state.md R20). -/
structure State where
  /-- `S.page8`, R21. -/
  page8 : Vector Byte 4
  /-- `S.page16`, R22. -/
  page16 : Vector Byte 4
  /-- `S.gen`, R23. -/
  gen : Vector Byte 16
  /-- `S.hi_latch`, R24. -/
  hiLatch : Byte
  /-- `S.owner`, R25. -/
  owner : Owner
  /-- `S.eop1`, R26. -/
  eop1 : Bool
  /-- `S.eop2`, R26. -/
  eop2 : Bool
  /-- `S.nmi_enabled`, R27. -/
  nmiEnabled : Bool
  /-- `S.channel_check`, R28. -/
  channelCheck : Bool
  /-- `S.portb`, R29. -/
  portb : Byte
  /-- `S.spkr_data`, R30. -/
  spkrData : Bool
  /-- `S.pit_out2`, R31. -/
  pitOut2 : Bool
  /-- The physical memory as far as it has been written (20_memory.md R51, R66; log 5). -/
  mem : Memory
  /-- The OPEN parameters (00_scope.md R9; log 6). No step writes them. -/
  board : Board
  /-- `START` has registered the A20 callback with the CPU (46_lifecycle.md R210; log 7). -/
  a20Registered : Bool
  /-- Teardown has happened: no operation follows (R213, U15; log 9). -/
  stopped : Bool
  /-- A word port access whose second half is still to come, because a call-back fell between its halves (R56; log 34). -/
  half : Option WordHalf
  /-- The model's own: what the environment has lined up (log 1, log 2). -/
  inputs : List Input
  /-- The model's own: answers lined up for queries (00_scope.md R8; log 3). -/
  answers : List Word
  /-- The model's own: what the rest of the platform will do with reads of ports the block does not decode, lined up: a
  byte another device answers, or `none` where no other device answers (40_port_decoder.md R116; log 8). -/
  platformReads : List (Option Byte)
  /-- The model's own: how many answers were drawn beyond the two lists (log 3, log 8). -/
  draws : Nat
  /-- The model's own: the actions of the last step, in order (R6; log 2). -/
  actions : List Action
  /-- The model's own: what the last operation returned (R6; log 2). -/
  ret : Ret
deriving DecidableEq, Repr

/-- The block raises nothing: "The list of exceptions is empty" (60_exceptions.md R220). -/
inductive Fault
deriving DecidableEq, Repr

/-- Why a step has no meaning. -/
inductive Refusal
  /-- Raised by `exec` for an instruction without a meaning; no arm does. Safe. -/
  | notModelled (mnemonic : String)
  /-- Raised by `DMARD8`, `DMAWR8`, `DMARD16`, `DMAWR16` when the owner is a channel of the other set: "A model gives such
  an operation no meaning (`refuse`)" (41_dma_page_xlat.md R138). Safe. -/
  | pathOwnerMismatch
  /-- Raised by `A20MASK` when no `START` has registered it: "the operation does not exist when `CPU_HAS_A20_GATE` is
  false" (46_lifecycle.md R210, R212). Safe. -/
  | a20NotRegistered
  /-- Raised by `IRQ` on a line outside the domain of `IRQ_ROUTE`: not an input the block can be given (43_irq_cascade.md
  R184, 00_scope.md R10). Safe. -/
  | noSuchIrqLine
  /-- Raised by `step` for a presentation that is no operation (R10, D35). Safe. -/
  | undecodable (e : DecodeError)
  /-- Raised by `step` after teardown: "no operation follows it" (46_lifecycle.md R213, U15). Safe. -/
  | afterStop
deriving DecidableEq, Repr

/-- The machine after `START` and one `RESET` (70_reset_and_hazards.md R252). `owner`, `eop1`, `eop2`, `spkrData` and
`pitOut2` are the values R250 gives; the fields no reset list names are zero (DESIGN CHOICE, unsafe, log 4); the rest is
log 2, 3, 5 to 9 and 34. -/
def State.reset : State :=
  { page8 := Vector.replicate 4 0
    page16 := Vector.replicate 4 0
    gen := Vector.replicate 16 0
    hiLatch := 0
    owner := .idle
    eop1 := false
    eop2 := false
    nmiEnabled := false
    channelCheck := false
    portb := 0
    spkrData := false
    pitOut2 := true
    mem := []
    board := Config.bootBoard
    a20Registered := Config.bootBoard.cpuHasA20Gate
    stopped := false
    half := none
    inputs := []
    answers := []
    platformReads := []
    draws := 0
    actions := []
    ret := .none }

end Sys2Proof.Machine
end

