-- ==== Sys2Proof/Machine/Operands.lean ====
section
/-! DEFINITION. Operand assembly (30_encoding.md R86, R92): port offsets, page cells, channel numbers, the address
formulas of 20_memory.md R61 and R62, and the two halves of a word. -/

namespace Sys2Proof.Machine

/-! ## Words and bytes (R92 (i), 20_memory.md R53) -/

/-- `w[7:0]`. -/
def lowByte (w : Word) : Byte := w.setWidth 8

/-- `w[15:8]`. -/
def highByte (w : Word) : Byte := (w >>> 8).setWidth 8

/-- `hi ++ lo`. -/
def joinBytes (hi lo : Byte) : Word := hi ++ lo

/-! ## Ports (R86 (a), (b)) -/

/-- `p - base` for a 32-port range. -/
def chipOffset (p : Port) (base : Port) : BitVec 5 := (p - base).setWidth 5

/-- `p - 0x70`, the clock's offset. -/
def rtcOffset (p : Port) : BitVec 4 := (p - 0x70).setWidth 4

/-- `(p - 0xC0) >> 1`, the secondary DMA controller's offset (40_port_decoder.md R112). -/
def dma2Offset (p : Port) : BitVec 4 := ((p - 0xC0) >>> 1).setWidth 4

/-- The port of the high half of a word access: `(p + 1) mod 0x10000` (R117). -/
def nextPort (p : Port) : Port := p + 1

/-- `k = p[2:0]`. -/
def pageOffset (p : Port) : BitVec 3 := p.extractLsb' 0 3

/-- `set = p[3]`: `true` is the word set. -/
def pageSet (p : Port) : Bool := p.getLsbD 3

/-- `g = p[3:0]`. -/
def genIndex (p : Port) : Fin 16 := ⟨p.toNat % 16, Nat.mod_lt _ (by decide)⟩

/-- What a page port reaches (`PageCell` of 41_dma_page_xlat.md R139). -/
inductive PageCell
  | byteSet (i : Fin 4)
  | wordSet (j : Fin 4)
  | generic (g : Fin 16)
deriving DecidableEq, Repr

/-- `PageCell(off)` of R139; `p[4]` takes no part. -/
def pageCell (p : Port) : PageCell :=
  match pageSel (pageOffset p) with
  | some i => if pageSet p then .wordSet i else .byteSet i
  | none => .generic (genIndex p)

/-! ## Channels (R86 (c), 20_memory.md R52) -/

/-- A channel of the primary controller: 0 to 3. -/
def isByteChannel (c : Fin 8) : Bool := decide (c.val < 4)

/-- The channel-within-set index, `c mod 4`. -/
def channelInSet (c : Fin 8) : Fin 4 := ⟨c.val % 4, Nat.mod_lt _ (by decide)⟩

/-- The expansion-bus index of word channel `j`, `j + 4`. -/
def wordChannel (j : Fin 4) : Fin 8 := ⟨j.val + 4, by omega⟩

/-! ## Addresses (20_memory.md R61, R62) -/

/-- `ByteAddr(page, off)`, R61. -/
def byteAddr (page : Byte) (off : Word) : PhysAddr := (page.setWidth 24 <<< 16) + off.setWidth 24

/-- `WordAddr(page, off)`, R62. -/
def wordAddr (page : Byte) (off : Word) : PhysAddr :=
  ((page.setWidth 24 <<< 16) &&& wordHighMask) ||| (off.setWidth 24 <<< 1)

/-- `A20MASK(l)`, 46_lifecycle.md R212. -/
def a20Mask (l : Bool) : PhysAddr := if l then a20MaskOn else a20MaskOff

/-! ## Interrupt routing (43_irq_cascade.md R184, R185) -/

/-- `IRQ_ROUTE(n)`; `none` outside its domain. -/
def irqRoute (b : Board) (n : Nat) : Option PicInput := b.irqRows.lookup n

/-- `ONBOARD_IRQ_ROUTE(src)`. -/
def onboardRoute (b : Board) : OnboardSource → PicInput
  | .timer0 => b.timer0Route
  | .clock => b.clockRoute
  | .keyboard => b.keyboardRoute

end Sys2Proof.Machine
end

