-- ==== Sys2Proof/Machine/Flags.lean ====
section
/-! DEFINITION. The computed bits: the NMI gate (44_nmi_diag_gate.md R192), the speaker level (45_speaker_timer_gate.md
R202), the end-of-process flag of a channel (42_dma_arbiter.md R153) and the port 0x61 read value (R193). -/

namespace Sys2Proof.Machine

/-- `NmiState(S)`, R192: `enabled==0 AND channel_check==0`. -/
def State.nmiState (s : State) : Bool := !s.nmiEnabled && !s.channelCheck

/-- `SpeakerLevel(S)`, R202: `speaker_data AND timer_output_2`. -/
def State.speakerLevel (s : State) : Bool := s.spkrData && s.pitOut2

/-- The end-of-process flag of the controller channel `c` belongs to (R153, D16; log 23). -/
def State.eopFlag (s : State) (c : Fin 8) : Bool := if isByteChannel c then s.eop1 else s.eop2

/-- A bit at position `n` of a byte. -/
def bitAt (b : Bool) (n : Nat) : Byte := if b then 1 <<< n else 0

/-- The byte a read of port 0x61 returns, R193: `(S.portb & ~PORTB_CLEAR) | (t << 4) | (S.pit_out2 << 5)`. -/
def portbView (portb : Byte) (toggle out2 : Bool) : Byte :=
  (portb &&& ~~~portbClear) ||| bitAt toggle portbToggleBit ||| bitAt out2 portbOut2Bit

end Sys2Proof.Machine
end

