-- ==== Sys2Proof/Machine/Ops.lean ====
section
/-! DEFINITION. The named operations: actions and queries (00_scope.md R8), memory (20_memory.md R51, R53), page cells
(41_dma_page_xlat.md R139), ownership (42_dma_arbiter.md R161) and the inputs of a step. The block raises no exception and
returns from none (60_exceptions.md R220, R227), so no operation enters or leaves one. -/

namespace Sys2Proof.Machine

/-! ## Actions, answers, return values (R6, R8) -/

/-- `emit`: one more action at the end of the step's list. -/
def State.emit (a : Action) (s : State) : State := { s with actions := s.actions ++ [a] }

/-- The answer the next query gets: the one lined up, else a free value (log 3). -/
def State.answer (s : State) : Word :=
  match s.answers with
  | [] => Config.freeAnswer s.draws
  | w :: _ => w

/-- The state after one answer has been taken. -/
def State.consume (s : State) : State :=
  { s with
    answers := s.answers.tail
    draws := if s.answers.isEmpty then s.draws + 1 else s.draws }

/-- `query`: an action whose answer is an unconstrained input of the step. -/
def State.ask (a : Action) (s : State) : Word × State := (s.answer, (s.emit a).consume)

/-- A query whose answer is a byte. -/
def State.askByte (a : Action) (s : State) : Byte × State := (lowByte s.answer, (s.emit a).consume)

/-- A query whose answer is one bit. -/
def State.askBit (a : Action) (s : State) : Bool × State := (s.answer.getLsbD 0, (s.emit a).consume)

/-- What the rest of the platform does with a read the block does not decode: the byte of the device that answers, or
`none` if no other device answers; lined up, else a free value (40_port_decoder.md R116; log 8). -/
def State.platformAnswer (s : State) : Option Byte :=
  match s.platformReads with
  | [] => Config.freePlatformRead s.draws
  | r :: _ => r

/-- The state after one such read. -/
def State.consumePlatform (s : State) : State :=
  { s with
    platformReads := s.platformReads.tail
    draws := if s.platformReads.isEmpty then s.draws + 1 else s.draws }

/-- The byte the CPU gets from a port the block does not decode: the platform's, and `UNMAPPED_READ` "when no other device
answers"; no action (R116; log 8, log 14). -/
def State.platformByte (s : State) : Byte × State := (s.platformAnswer.getD unmappedRead, s.consumePlatform)

/-- `return`. -/
def State.giveRet (r : Ret) (s : State) : State := { s with ret := r }

/-- The end of an operation that returns a byte. -/
def State.giveByte (r : Byte × State) : State := r.2.giveRet (.u8 r.1)

/-! ## Memory (20_memory.md R51, R53, R66) -/

/-- The byte last written at an address, if any. -/
def Memory.read : Memory → Nat → Option Byte
  | [], _ => none
  | (b, e) :: rest, a => if a = b then some e else Memory.read rest a

/-- Write one byte, keeping the canonical form. -/
def Memory.write : Memory → Nat → Byte → Memory
  | [], a, d => [(a, d)]
  | (b, e) :: rest, a, d =>
    if a < b then (a, d) :: (b, e) :: rest
    else if a = b then (a, d) :: rest
    else (b, e) :: Memory.write rest a d

/-- The byte of memory at a physical address, if it has been written. -/
def State.byteAt (s : State) (a : PhysAddr) : Option Byte := s.mem.read a.toNat

/-- One byte of memory changes. -/
def State.storeByte (a : PhysAddr) (d : Byte) (s : State) : State := { s with mem := s.mem.write a.toNat d }

/-- A word as two bytes, the low byte at `a` (R53 (b)). -/
def State.storeWord (a : PhysAddr) (w : Word) (s : State) : State :=
  (s.storeByte a (lowByte w)).storeByte (a + 1) (highByte w)

/-- `MemRead(a, 1)`: `query Mem.read8(a)`. A byte that has been written answers for itself (R66). -/
def State.memRead8 (a : PhysAddr) (s : State) : Byte × State :=
  ((s.byteAt a).getD (lowByte s.answer), (s.emit (.memRead8 a)).consume)

/-- `MemRead(a, 2)`: `query Mem.read16(a)`, equal to `Mem.read8(a + 1) ++ Mem.read8(a)` (R53 (b)). -/
def State.memRead16 (a : PhysAddr) (s : State) : Word × State :=
  (joinBytes ((s.byteAt (a + 1)).getD (highByte s.answer)) ((s.byteAt a).getD (lowByte s.answer)),
    (s.emit (.memRead16 a)).consume)

/-- `MemWrite(a, 1, d)`: `emit Mem.write8(a, d)`. -/
def State.memWrite8 (a : PhysAddr) (d : Byte) (s : State) : State := (s.emit (.memWrite8 a d)).storeByte a d

/-- `MemWrite(a, 2, w)`: `emit Mem.write16(a, w)`. -/
def State.memWrite16 (a : PhysAddr) (w : Word) (s : State) : State := (s.emit (.memWrite16 a w)).storeWord a w

/-! ## Page cells (41_dma_page_xlat.md R139) -/

/-- The byte a page port reads. -/
def State.readCell (c : PageCell) (s : State) : Byte :=
  match c with
  | .byteSet i => s.page8.get i
  | .wordSet j => s.page16.get j
  | .generic g => s.gen.get g

/-- What a write to a page port changes. -/
def State.writeCell (c : PageCell) (d : Byte) (s : State) : State :=
  match c with
  | .byteSet i => { s with page8 := s.page8.set i.val d i.isLt }
  | .wordSet j => { s with page16 := s.page16.set j.val d j.isLt }
  | .generic g => { s with gen := s.gen.set g.val d g.isLt }

/-! ## Forwarded levels (44_nmi_diag_gate.md R194, 45_speaker_timer_gate.md R203) -/

/-- Forward the NMI state, computed from the state as it is now (R194). -/
def State.forwardNmi (s : State) : State := s.emit (.busNmiState s.nmiState)

/-- Forward the speaker level, computed from the state as it is now (R203). -/
def State.forwardSpeaker (s : State) : State := s.emit (.spkLevel s.speakerLevel)

/-- Forward an end-of-process level to channel `c` if `flag` is 1 (42_dma_arbiter.md R153). -/
def State.forwardEopIf (flag : Bool) (c : Fin 8) (level : Bool) (s : State) : State :=
  if flag then s.emit (.busEop c level) else s

/-- Forward an end-of-process level to the owner, if there is one (R155, R156). -/
def State.forwardEopToOwner (level : Bool) (s : State) : State :=
  match s.owner with
  | .idle => s
  | .owned c => s.emit (.busEop c level)

/-! ## Ownership (42_dma_arbiter.md R153, R161) -/

/-- Grant: channel `c` owns the bus from now on, whoever owned it (R161 last row; log 21). -/
def State.grant (c : Fin 8) (s : State) : State :=
  ({ s with owner := .owned c }).forwardEopIf (s.eopFlag c) c true

/-- Release: nothing unless `c` is the owner. -/
def State.release (c : Fin 8) (s : State) : State :=
  if s.owner = .owned c then ({ s with owner := .idle }).forwardEopIf (s.eopFlag c) c false else s

/-! ## The inputs of a step -/

/-- A step begins: its input is taken, and its actions and return value are still empty (00_scope.md R6; log 2). -/
def State.beginStep (rest : List Input) (s : State) : State := { s with inputs := rest, actions := [], ret := .none }

/-- What the environment does next is a call-back (20_memory.md R56; log 34). -/
def State.callBackNext (s : State) : Bool :=
  match s.inputs with
  | .callBack _ _ _ :: _ => true
  | _ => false

/-- Put an operation first in line (log 2). -/
def State.present (f : Frame) (s : State) : State := { s with inputs := .op f :: s.inputs }

end Sys2Proof.Machine
end

