-- ==== Sys2Proof/Machine/DmaPage.lean ====
section
/-! DEFINITION. The page-register ports and the memory-side transfers (41_dma_page_xlat.md). -/

namespace Sys2Proof.Machine

/-- `IOR.PAGE.SEL`, R130: whatever the owner is (C3). -/
def iorPageSel (p : Port) (s : State) : Byte × State := (s.readCell (pageCell p), s)

/-- `IOR.PAGE.SEL`, R130. -/
def execIorPageSel (p : Port) (s : State) : Host.Outcome State Fault Refusal := .next (State.giveByte (iorPageSel p s))

/-- `IOW.PAGE.SEL`, R131: one page register, no action. -/
def iowPageSel (p : Port) (d : Byte) (s : State) : State := s.writeCell (pageCell p) d

/-- `IOW.PAGE.SEL`, R131. -/
def execIowPageSel (p : Port) (d : Byte) (s : State) : Host.Outcome State Fault Refusal := .next (iowPageSel p d s)

/-- `IOR.PAGE.GEN`, R132. -/
def iorPageGen (p : Port) (s : State) : Byte × State := (s.readCell (.generic (genIndex p)), s)

/-- `IOR.PAGE.GEN`, R132. -/
def execIorPageGen (p : Port) (s : State) : Host.Outcome State Fault Refusal := .next (State.giveByte (iorPageGen p s))

/-- `IOW.PAGE.GEN`, R133: the readback store only. -/
def iowPageGen (p : Port) (d : Byte) (s : State) : State := s.writeCell (.generic (genIndex p)) d

/-- `IOW.PAGE.GEN`, R133. -/
def execIowPageGen (p : Port) (d : Byte) (s : State) : Host.Outcome State Fault Refusal := .next (iowPageGen p d s)

/-- The address of a byte transfer of owner `c`: `ByteAddr(S.page8[c], a)` (R134, R135, 30_encoding.md R94). -/
def State.byteTransferAddr (s : State) (c : Fin 8) (a : Word) : PhysAddr := byteAddr (s.page8.get (channelInSet c)) a

/-- The address of a word transfer of owner `c`: `WordAddr(S.page16[c mod 4], a)` (R136, R137). -/
def State.wordTransferAddr (s : State) (c : Fin 8) (a : Word) : PhysAddr := wordAddr (s.page16.get (channelInSet c)) a

/-- `DMARD8`, R134. -/
def execDmard8 (a : Word) (s : State) : Host.Outcome State Fault Refusal :=
  match s.owner with
  | .idle => .next (s.giveRet (.u8 idleData))
  | .owned c =>
    if isByteChannel c then .next (State.giveByte (s.memRead8 (s.byteTransferAddr c a)))
    else .refused .pathOwnerMismatch

/-- `DMAWR8`, R135. -/
def execDmawr8 (a : Word) (d : Byte) (s : State) : Host.Outcome State Fault Refusal :=
  match s.owner with
  | .idle => .next s
  | .owned c =>
    if isByteChannel c then .next (s.memWrite8 (s.byteTransferAddr c a) d)
    else .refused .pathOwnerMismatch

/-- The read half of a word transfer: the high byte goes to the latch, the low byte is returned (R136,
42_dma_arbiter.md R159). -/
def State.latchWord (r : Word × State) : State := ({ r.2 with hiLatch := highByte r.1 }).giveRet (.u8 (lowByte r.1))

/-- The word of a write half: the latch and the incoming byte (R137, 42_dma_arbiter.md R160). -/
def State.latchedWord (s : State) (d : Byte) : Word := joinBytes s.hiLatch d

/-- `DMARD16`, R136: with no owner nothing is fetched and nothing latched. -/
def execDmard16 (a : Word) (s : State) : Host.Outcome State Fault Refusal :=
  match s.owner with
  | .idle => .next (s.giveRet (.u8 idleData))
  | .owned c =>
    if isByteChannel c then .refused .pathOwnerMismatch
    else .next (State.latchWord (s.memRead16 (s.wordTransferAddr c a)))

/-- `DMAWR16`, R137: the latch is read, not cleared. -/
def execDmawr16 (a : Word) (d : Byte) (s : State) : Host.Outcome State Fault Refusal :=
  match s.owner with
  | .idle => .next s
  | .owned c =>
    if isByteChannel c then .refused .pathOwnerMismatch
    else .next (s.memWrite16 (s.wordTransferAddr c a) (s.latchedWord d))

end Sys2Proof.Machine
end

