-- ==== Sys2Proof/Machine/DmaArbiter.lean ====
section
/-! DEFINITION. Hold requests, acknowledge lines, end of process, the peripheral-side halves of a transfer and the request
lines (42_dma_arbiter.md). -/

namespace Sys2Proof.Machine

/-- `HRQ1`, R150: the cascade channel's request input of `Dma2`. -/
def execHrq1 (l : Bool) (s : State) : Host.Outcome State Fault Refusal :=
  .next (s.emit (.dma2Dreq (channelInSet cascadeCh) l))

/-- `HRQ2`, R151: halt the CPU, then acknowledge the hold. -/
def execHrq2 (l : Bool) (s : State) : Host.Outcome State Fault Refusal := .next ((s.emit (.cpuHalt l)).emit (.dma2Hack l))

/-- `DACK`, R153: level `DACK_ACTIVE` grants, the other releases. -/
def execDack (c : Fin 8) (l : Bool) (s : State) : Host.Outcome State Fault Refusal :=
  .next (if l = dackActive then s.grant c else s.release c)

/-- `DACK4`, R154: inverted pass-through to `Dma1`'s hold acknowledge. -/
def execDack4 (l : Bool) (s : State) : Host.Outcome State Fault Refusal := .next (s.emit (.dma1Hack (!l)))

/-- `EOP1`, R155. -/
def execEop1 (l : Bool) (s : State) : Host.Outcome State Fault Refusal := .next (({ s with eop1 := l }).forwardEopToOwner l)

/-- `EOP2`, R156. -/
def execEop2 (l : Bool) (s : State) : Host.Outcome State Fault Refusal := .next (({ s with eop2 := l }).forwardEopToOwner l)

/-- `DIOR8`, R157: relayed whoever owns the bus. -/
def execDior8 (c : Fin 4) (s : State) : Host.Outcome State Fault Refusal := .next (State.giveByte (s.askByte (.busDackR c)))

/-- `DIOW8`, R158. -/
def execDiow8 (c : Fin 4) (d : Byte) (s : State) : Host.Outcome State Fault Refusal := .next (s.emit (.busDackW c d))

/-- `DIOR16`, R159: the latch is written always. -/
def execDior16 (j : Fin 4) (s : State) : Host.Outcome State Fault Refusal :=
  .next (State.latchWord (s.ask (.busDack16R (wordChannel j))))

/-- `DIOW16`, R160: the word is the latch and the byte. -/
def execDiow16 (j : Fin 4) (d : Byte) (s : State) : Host.Outcome State Fault Refusal :=
  .next (s.emit (.busDack16W (wordChannel j) (s.latchedWord d)))

/-- `DRQ`, R162: lines 0 to 3 to `Dma1`, 5 to 7 to `Dma2`. -/
def execDrq (n : Fin 8) (l : Bool) (s : State) : Host.Outcome State Fault Refusal :=
  .next (s.emit (if isByteChannel n then .dma1Dreq (channelInSet n) l else .dma2Dreq (channelInSet n) l))

end Sys2Proof.Machine
end

