-- ==== Sys2Proof/Machine/IrqCascade.lean ====
section
/-! DEFINITION. The interrupt cascade, the acknowledge vector mux and the request-line routing (43_irq_cascade.md). None of
these operations writes a field of `S`. -/

namespace Sys2Proof.Machine

/-- `INT2`, R180: the cascade input of `Pic1`. -/
def execInt2 (l : Bool) (s : State) : Host.Outcome State Fault Refusal := .next (s.emit (.picIr ⟨.pic1, cascadeIr⟩ l))

/-- `INT1`, R181: the CPU's interrupt input. -/
def execInt1 (l : Bool) (s : State) : Host.Outcome State Fault Refusal := .next (s.emit (.cpuIntr l))

/-- `SLAVEACK`, R182: the cascade input's vector comes from `Pic2`, any other is the default. It is the one leg of an
acknowledge that passes through the block; the legs between the CPU core and `Pic1` touch no state of it (R183). -/
def execSlaveack (n : Fin 8) (s : State) : Host.Outcome State Fault Refusal :=
  .next (if n = cascadeIr then State.giveByte (s.askByte .pic2Acknowledge) else s.giveRet (.u8 ackDefault))

/-- `IRQ`, R184: the input `IRQ_ROUTE` gives; a line outside its domain is no input of the block (00_scope.md R10). -/
def execIrq (n : Nat) (l : Bool) (s : State) : Host.Outcome State Fault Refusal :=
  match irqRoute s.board n with
  | some dst => .next (s.emit (.picIr dst l))
  | none => .refused .noSuchIrqLine

/-- `OBIRQ`, R185: the input `ONBOARD_IRQ_ROUTE` gives. -/
def execObirq (src : OnboardSource) (l : Bool) (s : State) : Host.Outcome State Fault Refusal :=
  .next (s.emit (.picIr (onboardRoute s.board src) l))

end Sys2Proof.Machine
end

