-- ==== Sys2Proof/Machine/Lifecycle.lean ====
section
/-! DEFINITION. Start, the A20 mask, teardown (46_lifecycle.md) and reset (70_reset_and_hazards.md R250). -/

namespace Sys2Proof.Machine

/-- `START`, R210: register the A20 callback if the CPU has the capability; no field of `S` changes (log 7). -/
def execStart (s : State) : Host.Outcome State Fault Refusal :=
  .next { s with a20Registered := s.a20Registered || s.board.cpuHasA20Gate }

/-- `A20MASK`, R212: a pure function, available once registered (R210; log 7). -/
def execA20mask (l : Bool) (s : State) : Host.Outcome State Fault Refusal :=
  if s.a20Registered then .next (s.giveRet (.u24 (a20Mask l))) else .refused .a20NotRegistered

/-- `STOP`, R213: no effect on `S`, no action; no operation follows (log 9). -/
def execStop (s : State) : Host.Outcome State Fault Refusal := .next { s with stopped := true }

/-- `RESET`, 70_reset_and_hazards.md R250: five fields, and no action. -/
def execReset (s : State) : Host.Outcome State Fault Refusal :=
  .next { s with spkrData := false, pitOut2 := true, owner := .idle, eop1 := false, eop2 := false }

end Sys2Proof.Machine
end

