-- ==== Sys2Proof/Machine/NmiGate.lean ====
section
/-! DEFINITION. The clock's ports and the read of port 0x61 (44_nmi_diag_gate.md). -/

namespace Sys2Proof.Machine

/-- `IOW.RTC0`, R190: the flag takes bit 7, the clock gets the whole byte, the NMI state is forwarded. -/
def iowRtc0 (d : Byte) (s : State) : State :=
  (({ s with nmiEnabled := d.getLsbD 7 }).emit (.rtcWrite 0 d)).forwardNmi

/-- `IOW.RTC0`, R190. -/
def execIowRtc0 (d : Byte) (s : State) : Host.Outcome State Fault Refusal := .next (iowRtc0 d s)

/-- `IOW.RTC`, R191: forwarded, nothing else. -/
def iowRtc (p : Port) (d : Byte) (s : State) : State := s.emit (.rtcWrite (rtcOffset p) d)

/-- `IOW.RTC`, R191. -/
def execIowRtc (p : Port) (d : Byte) (s : State) : Host.Outcome State Fault Refusal := .next (iowRtc p d s)

/-- `IOR.RTC`, R195: straight from the clock, offset 0 included. -/
def iorRtc (p : Port) (s : State) : Byte × State := s.askByte (.rtcRead (rtcOffset p))

/-- `IOR.RTC`, R195. -/
def execIorRtc (p : Port) (s : State) : Host.Outcome State Fault Refusal := .next (State.giveByte (iorRtc p s))

/-- `IOR.PORTB`, R193: the stored byte with the live toggle and timer output 2. -/
def iorPortb (s : State) : Byte × State :=
  let r := s.askBit .envRefreshToggle
  (portbView s.portb r.1 s.pitOut2, r.2)

/-- `IOR.PORTB`, R193. -/
def execIorPortb (s : State) : Host.Outcome State Fault Refusal := .next (State.giveByte (iorPortb s))

end Sys2Proof.Machine
end

