-- ==== Sys2Proof/Machine/PortDecoder.lean ====
section
/-! DEFINITION. The pass-through ports, the unbound ports and the ports the block does not decode (40_port_decoder.md R100
to R116). Each byte access is a function of its own, which the word accesses use too. -/

namespace Sys2Proof.Machine

/-- `IOR.DMA1`, R100. -/
def iorDma1 (p : Port) (s : State) : Byte × State := s.askByte (.dma1Read (chipOffset p 0x00))

/-- `IOR.DMA1`, R100. -/
def execIorDma1 (p : Port) (s : State) : Host.Outcome State Fault Refusal := .next (State.giveByte (iorDma1 p s))

/-- `IOW.DMA1`, R101. -/
def iowDma1 (p : Port) (d : Byte) (s : State) : State := s.emit (.dma1Write (chipOffset p 0x00) d)

/-- `IOW.DMA1`, R101. -/
def execIowDma1 (p : Port) (d : Byte) (s : State) : Host.Outcome State Fault Refusal := .next (iowDma1 p d s)

/-- `IOR.PIC1`, R102. -/
def iorPic1 (p : Port) (s : State) : Byte × State := s.askByte (.picRead .pic1 (chipOffset p 0x20))

/-- `IOR.PIC1`, R102. -/
def execIorPic1 (p : Port) (s : State) : Host.Outcome State Fault Refusal := .next (State.giveByte (iorPic1 p s))

/-- `IOW.PIC1`, R103. -/
def iowPic1 (p : Port) (d : Byte) (s : State) : State := s.emit (.picWrite .pic1 (chipOffset p 0x20) d)

/-- `IOW.PIC1`, R103. -/
def execIowPic1 (p : Port) (d : Byte) (s : State) : Host.Outcome State Fault Refusal := .next (iowPic1 p d s)

/-- `IOR.PIT`, R104. -/
def iorPit (p : Port) (s : State) : Byte × State := s.askByte (.pitRead (chipOffset p 0x40))

/-- `IOR.PIT`, R104. -/
def execIorPit (p : Port) (s : State) : Host.Outcome State Fault Refusal := .next (State.giveByte (iorPit p s))

/-- `IOW.PIT`, R105. -/
def iowPit (p : Port) (d : Byte) (s : State) : State := s.emit (.pitWrite (chipOffset p 0x40) d)

/-- `IOW.PIT`, R105. -/
def execIowPit (p : Port) (d : Byte) (s : State) : Host.Outcome State Fault Refusal := .next (iowPit p d s)

/-- `IOR.KBD_DATA`, R106. -/
def iorKbdData (s : State) : Byte × State := s.askByte .kbcDataR

/-- `IOR.KBD_DATA`, R106. -/
def execIorKbdData (s : State) : Host.Outcome State Fault Refusal := .next (State.giveByte (iorKbdData s))

/-- `IOW.KBD_DATA`, R107. -/
def iowKbdData (d : Byte) (s : State) : State := s.emit (.kbcDataW d)

/-- `IOW.KBD_DATA`, R107. -/
def execIowKbdData (d : Byte) (s : State) : Host.Outcome State Fault Refusal := .next (iowKbdData d s)

/-- `IOR.KBD_STATUS`, R108. -/
def iorKbdStatus (s : State) : Byte × State := s.askByte .kbcStatusR

/-- `IOR.KBD_STATUS`, R108. -/
def execIorKbdStatus (s : State) : Host.Outcome State Fault Refusal := .next (State.giveByte (iorKbdStatus s))

/-- `IOW.KBD_CMD`, R109. -/
def iowKbdCmd (d : Byte) (s : State) : State := s.emit (.kbcCommandW d)

/-- `IOW.KBD_CMD`, R109. -/
def execIowKbdCmd (d : Byte) (s : State) : Host.Outcome State Fault Refusal := .next (iowKbdCmd d s)

/-- `IOR.PIC2`, R110. -/
def iorPic2 (p : Port) (s : State) : Byte × State := s.askByte (.picRead .pic2 (chipOffset p 0xA0))

/-- `IOR.PIC2`, R110. -/
def execIorPic2 (p : Port) (s : State) : Host.Outcome State Fault Refusal := .next (State.giveByte (iorPic2 p s))

/-- `IOW.PIC2`, R111. -/
def iowPic2 (p : Port) (d : Byte) (s : State) : State := s.emit (.picWrite .pic2 (chipOffset p 0xA0) d)

/-- `IOW.PIC2`, R111. -/
def execIowPic2 (p : Port) (d : Byte) (s : State) : Host.Outcome State Fault Refusal := .next (iowPic2 p d s)

/-- `IOR.DMA2`, R112. -/
def iorDma2 (p : Port) (s : State) : Byte × State := s.askByte (.dma2Read (dma2Offset p))

/-- `IOR.DMA2`, R112. -/
def execIorDma2 (p : Port) (s : State) : Host.Outcome State Fault Refusal := .next (State.giveByte (iorDma2 p s))

/-- `IOW.DMA2`, R113. -/
def iowDma2 (p : Port) (d : Byte) (s : State) : State := s.emit (.dma2Write (dma2Offset p) d)

/-- `IOW.DMA2`, R113. -/
def execIowDma2 (p : Port) (d : Byte) (s : State) : Host.Outcome State Fault Refusal := .next (iowDma2 p d s)

/-- `IOR.UNMAPPED`, R114: the default value, and no chip sees the access. -/
def iorUnmapped (_p : Port) (s : State) : Byte × State := (unmappedRead, s)

/-- `IOR.UNMAPPED`, R114. -/
def execIorUnmapped (p : Port) (s : State) : Host.Outcome State Fault Refusal := .next (State.giveByte (iorUnmapped p s))

/-- `IOW.UNMAPPED`, R115: discarded. -/
def iowUnmapped (_p : Port) (_d : Byte) (s : State) : State := s

/-- `IOW.UNMAPPED`, R115. -/
def execIowUnmapped (p : Port) (d : Byte) (s : State) : Host.Outcome State Fault Refusal := .next (iowUnmapped p d s)

/-- `IOR.NOCLAIM`, R116: no state change and no action; the byte is the platform's, `UNMAPPED_READ` when no other
device answers (log 8). -/
def iorNoclaim (_p : Port) (s : State) : Byte × State := s.platformByte

/-- `IOR.NOCLAIM`, R116. -/
def execIorNoclaim (p : Port) (s : State) : Host.Outcome State Fault Refusal := .next (State.giveByte (iorNoclaim p s))

/-- `IOW.NOCLAIM`, R116: not the block's. -/
def iowNoclaim (_p : Port) (_d : Byte) (s : State) : State := s

/-- `IOW.NOCLAIM`, R116. -/
def execIowNoclaim (p : Port) (d : Byte) (s : State) : Host.Outcome State Fault Refusal := .next (iowNoclaim p d s)

end Sys2Proof.Machine
end

