-- ==== Sys2Proof/Machine/SpeakerGate.lean ====
section
/-! DEFINITION. The write of port 0x61 and the timer's output 2 (45_speaker_timer_gate.md). -/

namespace Sys2Proof.Machine

/-- `IOW.PORTB`, R200: store, gate, speaker data, speaker level, channel check, NMI state, in that order. -/
def iowPortb (d : Byte) (s : State) : State :=
  let s1 := ({ s with portb := d }).emit (.pitGate2 (d.getLsbD 0))
  let s2 := ({ s1 with spkrData := d.getLsbD 1 }).forwardSpeaker
  ({ s2 with channelCheck := d.getLsbD 3 }).forwardNmi

/-- `IOW.PORTB`, R200. -/
def execIowPortb (d : Byte) (s : State) : Host.Outcome State Fault Refusal := .next (iowPortb d s)

/-- `OUT2`, R201: the level is recorded and the speaker level forwarded, changed or not (R203). -/
def execOut2 (l : Bool) (s : State) : Host.Outcome State Fault Refusal := .next (({ s with pitOut2 := l }).forwardSpeaker)

end Sys2Proof.Machine
end

