-- ==== Sys2Proof/Machine/WordPort.lean ====
section
/-! DEFINITION. The word port accesses: two byte accesses, the lower port first (40_port_decoder.md R117, R118),
between which a call-back can fall (20_memory.md R56). -/

namespace Sys2Proof.Machine

/-- `IOR(p)` of R117: the byte read that `Decode(read, p)` selects (30_encoding.md R87). -/
def portIn (p : Port) (s : State) : Byte × State :=
  match portClass p with
  | .dma1 => iorDma1 p s
  | .pic1 => iorPic1 p s
  | .pit => iorPit p s
  | .kbdData => iorKbdData s
  | .portb => iorPortb s
  | .kbdControl => iorKbdStatus s
  | .unmapped => iorUnmapped p s
  | .rtcSelect => iorRtc p s
  | .rtc => iorRtc p s
  | .pageSel => iorPageSel p s
  | .pageGen => iorPageGen p s
  | .pic2 => iorPic2 p s
  | .dma2 => iorDma2 p s
  | .noclaim => iorNoclaim p s

/-- `IOW(p, d)` of R118: the byte write that `Decode(write, p)` selects. -/
def portOut (p : Port) (d : Byte) (s : State) : State :=
  match portClass p with
  | .dma1 => iowDma1 p d s
  | .pic1 => iowPic1 p d s
  | .pit => iowPit p d s
  | .kbdData => iowKbdData d s
  | .portb => iowPortb d s
  | .kbdControl => iowKbdCmd d s
  | .unmapped => iowUnmapped p d s
  | .rtcSelect => iowRtc0 d s
  | .rtc => iowRtc p d s
  | .pageSel => iowPageSel p d s
  | .pageGen => iowPageGen p d s
  | .pic2 => iowPic2 p d s
  | .dma2 => iowDma2 p d s
  | .noclaim => iowNoclaim p d s

/-- The second half of a word access (R117, R118): the byte access of the other port, and what the read returns. -/
def State.secondHalf (h : WordHalf) (s : State) : State :=
  match h with
  | .read p lo =>
    let hi := portIn p s
    hi.2.giveRet (.u16 (joinBytes hi.1 lo))
  | .write p d => portOut p d s

/-- After the first half: the second at once, or, with a call-back next in line, only once the call-backs are done. "A word
port access is two operations and is not atomic" (20_memory.md R56; log 34). -/
def State.afterFirstHalf (h : WordHalf) (s : State) : State :=
  if s.callBackNext then { s with half := some h } else s.secondHalf h

/-- `IOR16`, R117. -/
def execIor16 (p : Port) (s : State) : Host.Outcome State Fault Refusal :=
  let lo := portIn p s
  .next (lo.2.afterFirstHalf (.read (nextPort p) lo.1))

/-- `IOW16`, R118. -/
def execIow16 (p : Port) (w : Word) (s : State) : Host.Outcome State Fault Refusal :=
  .next ((portOut p (lowByte w) s).afterFirstHalf (.write (nextPort p) (highByte w)))

end Sys2Proof.Machine
end

