-- ==== Sys2Proof/Machine/Dispatch.lean ====
section
/-! DEFINITION. One arm per operation of 30_encoding.md R80. -/

namespace Sys2Proof.Machine

def exec (i : Instr) (s : State) : Host.Outcome State Fault Refusal :=
  match i with
  | .iorDma1 p => Sys2Proof.Machine.execIorDma1 p s
  | .iowDma1 p d => Sys2Proof.Machine.execIowDma1 p d s
  | .iorPic1 p => Sys2Proof.Machine.execIorPic1 p s
  | .iowPic1 p d => Sys2Proof.Machine.execIowPic1 p d s
  | .iorPit p => Sys2Proof.Machine.execIorPit p s
  | .iowPit p d => Sys2Proof.Machine.execIowPit p d s
  | .iorKbdData => Sys2Proof.Machine.execIorKbdData s
  | .iowKbdData d => Sys2Proof.Machine.execIowKbdData d s
  | .iorPortb => Sys2Proof.Machine.execIorPortb s
  | .iowPortb d => Sys2Proof.Machine.execIowPortb d s
  | .iorKbdStatus => Sys2Proof.Machine.execIorKbdStatus s
  | .iowKbdCmd d => Sys2Proof.Machine.execIowKbdCmd d s
  | .iorRtc p => Sys2Proof.Machine.execIorRtc p s
  | .iowRtc0 d => Sys2Proof.Machine.execIowRtc0 d s
  | .iowRtc p d => Sys2Proof.Machine.execIowRtc p d s
  | .iorPageSel p => Sys2Proof.Machine.execIorPageSel p s
  | .iowPageSel p d => Sys2Proof.Machine.execIowPageSel p d s
  | .iorPageGen p => Sys2Proof.Machine.execIorPageGen p s
  | .iowPageGen p d => Sys2Proof.Machine.execIowPageGen p d s
  | .iorPic2 p => Sys2Proof.Machine.execIorPic2 p s
  | .iowPic2 p d => Sys2Proof.Machine.execIowPic2 p d s
  | .iorDma2 p => Sys2Proof.Machine.execIorDma2 p s
  | .iowDma2 p d => Sys2Proof.Machine.execIowDma2 p d s
  | .iorUnmapped p => Sys2Proof.Machine.execIorUnmapped p s
  | .iowUnmapped p d => Sys2Proof.Machine.execIowUnmapped p d s
  | .iorNoclaim p => Sys2Proof.Machine.execIorNoclaim p s
  | .iowNoclaim p d => Sys2Proof.Machine.execIowNoclaim p d s
  | .ior16 p => Sys2Proof.Machine.execIor16 p s
  | .iow16 p w => Sys2Proof.Machine.execIow16 p w s
  | .dmard8 a => Sys2Proof.Machine.execDmard8 a s
  | .dmawr8 a d => Sys2Proof.Machine.execDmawr8 a d s
  | .dmard16 a => Sys2Proof.Machine.execDmard16 a s
  | .dmawr16 a d => Sys2Proof.Machine.execDmawr16 a d s
  | .hrq1 l => Sys2Proof.Machine.execHrq1 l s
  | .hrq2 l => Sys2Proof.Machine.execHrq2 l s
  | .dack c l => Sys2Proof.Machine.execDack c l s
  | .dack4 l => Sys2Proof.Machine.execDack4 l s
  | .eop1 l => Sys2Proof.Machine.execEop1 l s
  | .eop2 l => Sys2Proof.Machine.execEop2 l s
  | .dior8 c => Sys2Proof.Machine.execDior8 c s
  | .diow8 c d => Sys2Proof.Machine.execDiow8 c d s
  | .dior16 j => Sys2Proof.Machine.execDior16 j s
  | .diow16 j d => Sys2Proof.Machine.execDiow16 j d s
  | .drq n l => Sys2Proof.Machine.execDrq n l s
  | .int2 l => Sys2Proof.Machine.execInt2 l s
  | .int1 l => Sys2Proof.Machine.execInt1 l s
  | .slaveack n => Sys2Proof.Machine.execSlaveack n s
  | .irq n l => Sys2Proof.Machine.execIrq n l s
  | .obirq src l => Sys2Proof.Machine.execObirq src l s
  | .out2 l => Sys2Proof.Machine.execOut2 l s
  | .start => Sys2Proof.Machine.execStart s
  | .a20mask l => Sys2Proof.Machine.execA20mask l s
  | .stop => Sys2Proof.Machine.execStop s
  | .reset => Sys2Proof.Machine.execReset s

end Sys2Proof.Machine
end

