-- ==== Sys2Proof/Machine/Timeline.lean ====
section
/-! DEFINITION. The single timeline (20_memory.md R66): taking the environment's next input, and going on with a word port
access that a call-back interrupted (R56). -/

namespace Sys2Proof.Machine

/-- Run what is presented, or refuse what is no operation (00_scope.md R10, D35; log 11). -/
def runFrame (f : Frame) (s : State) : Host.Outcome State Fault Refusal :=
  match decode f with
  | .ok i => exec i s
  | .error e => .refused (.undecodable e)

/-- Take the first pending input. With none pending nothing happens: the block waits for no one and does nothing of itself
(10_state.md R35; log 2). -/
def State.takeInput (s : State) : Host.Outcome State Fault Refusal :=
  match s.inputs with
  | [] => .next (s.beginStep [])
  | .memStore a d :: rest => .next ((s.beginStep rest).storeByte a d)
  | .callBack e a d :: rest => runFrame ⟨.event e, a, d⟩ (s.beginStep rest)
  | .op f :: rest => runFrame f (s.beginStep rest)

/-- The second half of an interrupted word access, which takes no input. -/
def State.resumeWord (h : WordHalf) (s : State) : State := ({ s with half := none }.beginStep s.inputs).secondHalf h

/-- The next operation of the timeline: the second half of a word access is due before any input but a call-back (R56). -/
def State.advance (s : State) : Host.Outcome State Fault Refusal :=
  match s.half with
  | none => s.takeInput
  | some h => if s.callBackNext then s.takeInput else .next (s.resumeWord h)

end Sys2Proof.Machine
end

