-- ==== Sys2Proof/Machine/Step.lean ====
section
/-! DEFINITION. One step: one operation of the single timeline (00_scope.md R6, 20_memory.md R66). -/

namespace Sys2Proof.Machine

/-- One step is the next operation of the timeline. After teardown no operation follows (46_lifecycle.md R213, U15; log 9). -/
def step (s : State) : Host.Outcome State Fault Refusal := if s.stopped then .refused .afterStop else s.advance

/-- The operation of a table row's word, first in line, on a machine that has not been torn down and is in no word access
(log 2). -/
def State.withFetchWord (s : State) (nbits w : Nat) : State :=
  ({ s with stopped := false, half := none }).present (frameOfBits nbits w)

end Sys2Proof.Machine
end

