-- ==== Sys2Proof/Safety.lean ====
section
/-! DEFINITION. The terms claims are stated in: the aggregate `S` by itself, the invariant of the machine, when an
operation has a meaning, and a run that never stops. -/

namespace Sys2Proof.Machine

/-! ## The aggregate `S` -/

/-- The fields of `S` and no others (10_state.md R20). -/
structure Block where
  page8 : Vector Byte 4
  page16 : Vector Byte 4
  gen : Vector Byte 16
  hiLatch : Byte
  owner : Owner
  eop1 : Bool
  eop2 : Bool
  nmiEnabled : Bool
  channelCheck : Bool
  portb : Byte
  spkrData : Bool
  pitOut2 : Bool
deriving DecidableEq, Repr

/-- `S` of a configuration. -/
def State.block (s : State) : Block :=
  { page8 := s.page8, page16 := s.page16, gen := s.gen, hiLatch := s.hiLatch, owner := s.owner, eop1 := s.eop1,
    eop2 := s.eop2, nmiEnabled := s.nmiEnabled, channelCheck := s.channelCheck, portb := s.portb,
    spkrData := s.spkrData, pitOut2 := s.pitOut2 }

/-! ## States written out, for statements of results -/

/-- `s` with more actions at the end of the step's list, and nothing else changed. -/
def State.withActions (s : State) (acts : List Action) : State := { s with actions := s.actions ++ acts }

/-- `s` after one byte query `a`: the action is recorded, one answer is taken and its low byte returned; nothing else
changes. -/
def State.byteQueried (s : State) (a : Action) : State :=
  { s with
    actions := s.actions ++ [a]
    answers := s.answers.tail
    draws := if s.answers.isEmpty then s.draws + 1 else s.draws
    ret := .u8 (s.answer.setWidth 8) }

/-! ## The invariant -/

/-- What holds of every state the machine can be in: 10_state.md R34 (b), the canonical form of memory, the constraints
on the OPEN tables (43_irq_cascade.md R184 to R186), and an A20 callback only on a CPU that has one (46_lifecycle.md R210). -/
structure State.Inv (s : State) : Prop where
  owner_ne_cascade : s.owner ≠ .owned 4
  mem_wf : Memory.wf s.mem
  board_wf : s.board.wf = true
  a20_of_gate : s.a20Registered = true → s.board.cpuHasA20Gate = true

/-- The flags port 0x61 feeds agree with the stored byte, except that reset may have cleared the speaker data
(10_state.md R34 (c), R30). -/
structure State.PortbInSync (s : State) : Prop where
  channelCheck_eq : s.channelCheck = s.portb.getLsbD 3
  spkrData_imp : s.spkrData = true → s.portb.getLsbD 1 = true

/-! ## Chip accesses -/

/-- The action reads or writes a register of an attached chip (40_port_decoder.md R119, R120). -/
def Action.isChipAccess : Action → Bool
  | .dma1Write _ _ | .dma1Read _ | .dma2Write _ _ | .dma2Read _ => true
  | .picWrite _ _ _ | .picRead _ _ | .pitWrite _ _ | .pitRead _ => true
  | .rtcWrite _ _ | .rtcRead _ | .kbcDataW _ | .kbcCommandW _ | .kbcDataR | .kbcStatusR => true
  | .dma1Hack _ | .dma1Dreq _ _ | .dma2Hack _ | .dma2Dreq _ _ | .picIr _ _ | .pic2Acknowledge | .pitGate2 _ => false
  | .cpuHalt _ | .cpuIntr _ | .memWrite8 _ _ | .memWrite16 _ _ | .memRead8 _ | .memRead16 _ => false
  | .busNmiState _ | .busEop _ _ | .busDackW _ _ | .busDack16W _ _ | .busDackR _ | .busDack16R _ => false
  | .spkLevel _ | .envRefreshToggle => false

/-! ## Operations that have a meaning -/

/-- No owner, or an owner of the primary controller: what a byte memory-side transfer needs (41_dma_page_xlat.md R138). -/
def State.bytePathOpen (s : State) : Bool :=
  match s.owner with
  | .idle => true
  | .owned c => isByteChannel c

/-- No owner, or an owner of the secondary controller: what a word memory-side transfer needs (R138). -/
def State.wordPathOpen (s : State) : Bool :=
  match s.owner with
  | .idle => true
  | .owned c => !isByteChannel c

/-- The spec gives the operation a meaning in this state. -/
def Instr.admissible (i : Instr) (s : State) : Bool :=
  match i with
  | .dmard8 _ | .dmawr8 _ _ => s.bytePathOpen
  | .dmard16 _ | .dmawr16 _ _ => s.wordPathOpen
  | .irq n _ => (irqRoute s.board n).isSome
  | .a20mask _ => s.a20Registered
  | .iorDma1 _ | .iowDma1 _ _ | .iorPic1 _ | .iowPic1 _ _ | .iorPit _ | .iowPit _ _ => true
  | .iorKbdData | .iowKbdData _ | .iorPortb | .iowPortb _ | .iorKbdStatus | .iowKbdCmd _ => true
  | .iorRtc _ | .iowRtc0 _ | .iowRtc _ _ => true
  | .iorPageSel _ | .iowPageSel _ _ | .iorPageGen _ | .iowPageGen _ _ => true
  | .iorPic2 _ | .iowPic2 _ _ | .iorDma2 _ | .iowDma2 _ _ => true
  | .iorUnmapped _ | .iowUnmapped _ _ | .iorNoclaim _ | .iowNoclaim _ _ | .ior16 _ | .iow16 _ _ => true
  | .hrq1 _ | .hrq2 _ | .dack _ _ | .dack4 _ | .eop1 _ | .eop2 _ => true
  | .dior8 _ | .diow8 _ _ | .dior16 _ | .diow16 _ _ | .drq _ _ => true
  | .int2 _ | .int1 _ | .slaveack _ | .obirq _ _ | .out2 _ => true
  | .start | .stop | .reset => true

/-- What is presented is an operation, and one the spec gives a meaning in this state. -/
def frameReady (f : Frame) (s : State) : Bool :=
  match decode f with
  | .ok i => Instr.admissible i s
  | .error _ => false

/-- The next step has a meaning: no teardown, and what it runs, if anything, is a change of memory, the second half of a word
access, or an admissible operation. -/
def State.ready (s : State) : Bool :=
  !s.stopped &&
    match s.inputs with
    | [] => true
    | .memStore _ _ :: _ => true
    | .callBack e a d :: _ => frameReady ⟨.event e, a, d⟩ s
    | .op f :: _ => s.half.isSome || frameReady f s

/-- A run of `n` steps that never stops. -/
def SafeRun : Nat → State → Prop
  | 0, _ => True
  | n + 1, s => ∃ t, step s = .next t ∧ SafeRun n t

end Sys2Proof.Machine
end

