-- ==== Sys2Proof/Certificates/Slice0/Obligations.lean ====
section
/-! DEFINITION. The statements for the provers. A state written `s.withActions acts`, `s.byteQueried a` or `{ s with … }` is
`s` with those fields changed and every other one, memory included, as it was. -/

open Sys2Proof Sys2Proof.Machine

/-- Decoding the presentation of a well-formed operation gives the operation back. For every well-formed operation,
with every operand at every value its presentation admits, decode (encode i) is i. The presentation of an event is the
model's (log 1). (derived: 30_encoding.md sections 1 to 4) -/
def Obligations.DecodeOfEncodeIsTheOperation : Prop :=
  ∀ i : Instr, i.wf = true → decode (encode i) = .ok i

/-- Whatever decodes is a well-formed operation. For every presentation, if it decodes to an operation then the
operation's operands are in the ranges of the operation table; in particular DACK and DRQ never carry channel 4. The
frames and the errors are the model's (log 1, 11); that the excluded channel is 4 is the spec's own decision D13 (log
20). (derived: 30_encoding.md sections 1 and 4, 00_scope.md section 5) -/
def Obligations.DecodedOperationsAreWellFormed : Prop :=
  ∀ (f : Frame) (i : Instr), decode f = .ok i → i.wf = true

/-- Each port range decodes, in each direction, to its own operation. For every port number and data byte: a byte read
and a byte write decode to the operation the port map gives the port, range by range; the word accesses decode to
IOR16 and IOW16 at every port. The presentation of a port access is the model's (log 1). These are the spec's own
decisions: ports from 0xE0 up are not the block's, D1 (log 13); the word accesses at every port, D3 (log 15); the
unbound ports of the decoded range, D2 (log 14); even and odd ports of 0xC0 to 0xDF, D3, D4 (log 16); the offsets of a
page block and its repeats, D6, D7, D8 (log 17, 18). (derived: 30_encoding.md section 4, 20_memory.md section 3) -/
def Obligations.PortMapDecodesByRange : Prop :=
  ∀ (p : Port) (d : Byte) (w : Word),
    decode ⟨.port .read .word, p, 0⟩ = .ok (.ior16 p) ∧ decode ⟨.port .write .word, p, w⟩ = .ok (.iow16 p w) ∧
    (p.toNat ≤ 0x1F → decode ⟨.port .read .byte, p, 0⟩ = .ok (.iorDma1 p) ∧ decode ⟨.port .write .byte, p, d.setWidth 16⟩ = .ok (.iowDma1 p d)) ∧
    (0x20 ≤ p.toNat → p.toNat ≤ 0x3F → decode ⟨.port .read .byte, p, 0⟩ = .ok (.iorPic1 p) ∧ decode ⟨.port .write .byte, p, d.setWidth 16⟩ = .ok (.iowPic1 p d)) ∧
    (0x40 ≤ p.toNat → p.toNat ≤ 0x5F → decode ⟨.port .read .byte, p, 0⟩ = .ok (.iorPit p) ∧ decode ⟨.port .write .byte, p, d.setWidth 16⟩ = .ok (.iowPit p d)) ∧
    (p.toNat = 0x60 → decode ⟨.port .read .byte, p, 0⟩ = .ok .iorKbdData ∧ decode ⟨.port .write .byte, p, d.setWidth 16⟩ = .ok (.iowKbdData d)) ∧
    (p.toNat = 0x61 → decode ⟨.port .read .byte, p, 0⟩ = .ok .iorPortb ∧ decode ⟨.port .write .byte, p, d.setWidth 16⟩ = .ok (.iowPortb d)) ∧
    (p.toNat = 0x64 → decode ⟨.port .read .byte, p, 0⟩ = .ok .iorKbdStatus ∧ decode ⟨.port .write .byte, p, d.setWidth 16⟩ = .ok (.iowKbdCmd d)) ∧
    (0x70 ≤ p.toNat → p.toNat ≤ 0x7F → decode ⟨.port .read .byte, p, 0⟩ = .ok (.iorRtc p)) ∧
    (p.toNat = 0x70 → decode ⟨.port .write .byte, p, d.setWidth 16⟩ = .ok (.iowRtc0 d)) ∧
    (0x71 ≤ p.toNat → p.toNat ≤ 0x7F → decode ⟨.port .write .byte, p, d.setWidth 16⟩ = .ok (.iowRtc p d)) ∧
    (0x80 ≤ p.toNat → p.toNat ≤ 0x9F → p.toNat % 8 ∈ [1, 2, 3, 7] →
      decode ⟨.port .read .byte, p, 0⟩ = .ok (.iorPageSel p) ∧ decode ⟨.port .write .byte, p, d.setWidth 16⟩ = .ok (.iowPageSel p d)) ∧
    (0x80 ≤ p.toNat → p.toNat ≤ 0x9F → p.toNat % 8 ∈ [0, 4, 5, 6] →
      decode ⟨.port .read .byte, p, 0⟩ = .ok (.iorPageGen p) ∧ decode ⟨.port .write .byte, p, d.setWidth 16⟩ = .ok (.iowPageGen p d)) ∧
    (0xA0 ≤ p.toNat → p.toNat ≤ 0xBF → decode ⟨.port .read .byte, p, 0⟩ = .ok (.iorPic2 p) ∧ decode ⟨.port .write .byte, p, d.setWidth 16⟩ = .ok (.iowPic2 p d)) ∧
    (0xC0 ≤ p.toNat → p.toNat ≤ 0xDF → p.toNat % 2 = 0 → decode ⟨.port .read .byte, p, 0⟩ = .ok (.iorDma2 p) ∧ decode ⟨.port .write .byte, p, d.setWidth 16⟩ = .ok (.iowDma2 p d)) ∧
    (p.toNat = 0x62 ∨ p.toNat = 0x63 ∨ (0x65 ≤ p.toNat ∧ p.toNat ≤ 0x6F) ∨
        (0xC1 ≤ p.toNat ∧ p.toNat ≤ 0xDF ∧ p.toNat % 2 = 1) →
      decode ⟨.port .read .byte, p, 0⟩ = .ok (.iorUnmapped p) ∧ decode ⟨.port .write .byte, p, d.setWidth 16⟩ = .ok (.iowUnmapped p d)) ∧
    (0xE0 ≤ p.toNat → decode ⟨.port .read .byte, p, 0⟩ = .ok (.iorNoclaim p) ∧ decode ⟨.port .write .byte, p, d.setWidth 16⟩ = .ok (.iowNoclaim p d))

/-- A few presentations written out by hand decode to the operations they stand for. Port accesses written as
direction, port and data, and events written as name, index and level, decode to the operations of the spec's test
vectors; the table's word 0x0081 is a read of a page register. That the table's word 0x0081, which a read and a write
row share, is the read, and the lanes of the event presentations, are the model's choice (log 1); that port 0x8B is a
page register's and that channel 4 is the cascade's are the spec's own decisions D6, D7, D13 (log 17, 18, 20).
(derived: 30_encoding.md sections 2 and 4, 95_test_vectors.md section 2) -/
def Obligations.WrittenOutWordsDecode : Prop :=
  decode ⟨.port .read .byte, 0x0008, 0⟩ = .ok (.iorDma1 0x08) ∧
    decode ⟨.port .write .byte, 0x0043, 0x00B6⟩ = .ok (.iowPit 0x43 0xB6) ∧
    decode ⟨.port .write .byte, 0x0070, 0x0080⟩ = .ok (.iowRtc0 0x80) ∧
    decode ⟨.port .read .byte, 0x008B, 0⟩ = .ok (.iorPageSel 0x8B) ∧
    decode ⟨.port .write .word, 0x0060, 0x0355⟩ = .ok (.iow16 0x60 0x0355) ∧
    decode ⟨.event .dack, 2, 0⟩ = .ok (.dack 2 false) ∧
    decode ⟨.event .dack, 4, 1⟩ = .ok (.dack4 true) ∧
    decodeTableWord 16 0x0081 = some (.iorPageSel 0x81)

/-- Every byte port access has one handler, which makes at most one chip access. For every port and direction a byte
access decodes to an operation, and that operation, in every state, answers a next state and accesses a register of an
attached chip at most once. (stated: R120) -/
def Obligations.EveryPortAccessHasOneHandler : Prop :=
  ∀ (p : Port) (d : Byte), ∃ i j : Instr,
    decode ⟨.port .read .byte, p, 0⟩ = .ok i ∧ decode ⟨.port .write .byte, p, d.setWidth 16⟩ = .ok j ∧
    ∀ s : State,
      (∃ (t : State) (acts : List Action), exec i s = .next t ∧ t.actions = s.actions ++ acts ∧
        (acts.filter Action.isChipAccess).length ≤ 1) ∧
      (∃ (t : State) (acts : List Action), exec j s = .next t ∧ t.actions = s.actions ++ acts ∧
        (acts.filter Action.isChipAccess).length ≤ 1)

/-- A byte read of a chip's port queries that chip at the port's offset and returns the answer. For every port of a
pass-through range and every state: the read decodes to the range's operation, which makes one query of the owner with
the offset (port minus base) and returns the low byte of the answer; nothing else of the state changes, no byte of
memory included. That a chip is handed the full offset, unreduced, is the spec's own decision D5 (log 16); the answer
is the environment's (log 3). (derived: 40_port_decoder.md sections 1 and 2, 44_nmi_diag_gate.md section 2) -/
def Obligations.ChipPortReadsQueryTheOwner : Prop :=
  ∀ (p : Port) (s : State),
    (p.toNat ≤ 0x1F → decode ⟨.port .read .byte, p, 0⟩ = .ok (.iorDma1 p) ∧
      exec (.iorDma1 p) s = .next (s.byteQueried (.dma1Read (BitVec.ofNat 5 p.toNat)))) ∧
    (0x20 ≤ p.toNat → p.toNat ≤ 0x3F → decode ⟨.port .read .byte, p, 0⟩ = .ok (.iorPic1 p) ∧
      exec (.iorPic1 p) s = .next (s.byteQueried (.picRead .pic1 (BitVec.ofNat 5 (p.toNat - 0x20))))) ∧
    (0x40 ≤ p.toNat → p.toNat ≤ 0x5F → decode ⟨.port .read .byte, p, 0⟩ = .ok (.iorPit p) ∧
      exec (.iorPit p) s = .next (s.byteQueried (.pitRead (BitVec.ofNat 5 (p.toNat - 0x40))))) ∧
    (p.toNat = 0x60 → decode ⟨.port .read .byte, p, 0⟩ = .ok .iorKbdData ∧ exec .iorKbdData s = .next (s.byteQueried .kbcDataR)) ∧
    (p.toNat = 0x64 → decode ⟨.port .read .byte, p, 0⟩ = .ok .iorKbdStatus ∧ exec .iorKbdStatus s = .next (s.byteQueried .kbcStatusR)) ∧
    (0x70 ≤ p.toNat → p.toNat ≤ 0x7F → decode ⟨.port .read .byte, p, 0⟩ = .ok (.iorRtc p) ∧
      exec (.iorRtc p) s = .next (s.byteQueried (.rtcRead (BitVec.ofNat 4 (p.toNat - 0x70))))) ∧
    (0xA0 ≤ p.toNat → p.toNat ≤ 0xBF → decode ⟨.port .read .byte, p, 0⟩ = .ok (.iorPic2 p) ∧
      exec (.iorPic2 p) s = .next (s.byteQueried (.picRead .pic2 (BitVec.ofNat 5 (p.toNat - 0xA0)))))

/-- A byte write of a chip's port forwards the byte to that chip at the port's offset. For every port of a pass-
through range, every byte and every state: the write decodes to the range's operation, which emits exactly one write
of the owner with the offset and the whole byte; nothing else of the state changes, no byte of memory included. That a
chip is handed the full offset, unreduced, is the spec's own decision D5 (log 16). (derived: 40_port_decoder.md
sections 1 and 2, 44_nmi_diag_gate.md section 2) -/
def Obligations.ChipPortWritesForwardTheByte : Prop :=
  ∀ (p : Port) (d : Byte) (s : State),
    (p.toNat ≤ 0x1F → decode ⟨.port .write .byte, p, d.setWidth 16⟩ = .ok (.iowDma1 p d) ∧
      exec (.iowDma1 p d) s = .next (s.withActions [.dma1Write (BitVec.ofNat 5 p.toNat) d])) ∧
    (0x20 ≤ p.toNat → p.toNat ≤ 0x3F → decode ⟨.port .write .byte, p, d.setWidth 16⟩ = .ok (.iowPic1 p d) ∧
      exec (.iowPic1 p d) s = .next (s.withActions [.picWrite .pic1 (BitVec.ofNat 5 (p.toNat - 0x20)) d])) ∧
    (0x40 ≤ p.toNat → p.toNat ≤ 0x5F → decode ⟨.port .write .byte, p, d.setWidth 16⟩ = .ok (.iowPit p d) ∧
      exec (.iowPit p d) s = .next (s.withActions [.pitWrite (BitVec.ofNat 5 (p.toNat - 0x40)) d])) ∧
    (p.toNat = 0x60 → decode ⟨.port .write .byte, p, d.setWidth 16⟩ = .ok (.iowKbdData d) ∧
      exec (.iowKbdData d) s = .next (s.withActions [.kbcDataW d])) ∧
    (p.toNat = 0x64 → decode ⟨.port .write .byte, p, d.setWidth 16⟩ = .ok (.iowKbdCmd d) ∧
      exec (.iowKbdCmd d) s = .next (s.withActions [.kbcCommandW d])) ∧
    (0x71 ≤ p.toNat → p.toNat ≤ 0x7F → decode ⟨.port .write .byte, p, d.setWidth 16⟩ = .ok (.iowRtc p d) ∧
      exec (.iowRtc p d) s = .next (s.withActions [.rtcWrite (BitVec.ofNat 4 (p.toNat - 0x70)) d])) ∧
    (0xA0 ≤ p.toNat → p.toNat ≤ 0xBF → decode ⟨.port .write .byte, p, d.setWidth 16⟩ = .ok (.iowPic2 p d) ∧
      exec (.iowPic2 p d) s = .next (s.withActions [.picWrite .pic2 (BitVec.ofNat 5 (p.toNat - 0xA0)) d]))

/-- A byte access of an even port of 0xC0 to 0xDE reaches the secondary DMA controller at half the offset. For every
even port of the range, every byte and every state: a read makes one query of Dma2 with the offset (port - 0xC0) / 2
and returns the low byte of the answer; a write emits exactly one write of Dma2 with that offset and the whole byte;
nothing else of the state changes, no byte of memory included. That the controller answers at even ports only, at half
the offset, and is handed that offset unreduced are the spec's own decisions D3, D4, D5 (log 16). (derived:
40_port_decoder.md section 2) -/
def Obligations.SecondaryDmaPortsAreEvenAndHalved : Prop :=
  ∀ (p : Port) (d : Byte) (s : State), 0xC0 ≤ p.toNat → p.toNat ≤ 0xDF → p.toNat % 2 = 0 →
    decode ⟨.port .read .byte, p, 0⟩ = .ok (.iorDma2 p) ∧ decode ⟨.port .write .byte, p, d.setWidth 16⟩ = .ok (.iowDma2 p d) ∧
    exec (.iorDma2 p) s = .next (s.byteQueried (.dma2Read (BitVec.ofNat 4 ((p.toNat - 0xC0) / 2)))) ∧
    exec (.iowDma2 p d) s = .next (s.withActions [.dma2Write (BitVec.ofNat 4 ((p.toNat - 0xC0) / 2)) d])

/-- An unbound port reads 0xFF and discards writes, and no chip sees either. For every unbound port inside the decoded
range (0x62, 0x63, 0x65 to 0x6F, odd 0xC1 to 0xDF), every byte and every state: a read returns 0xFF and changes
nothing else, a write changes nothing at all. The value 0xFF and the extent of the decoded range are the spec's own
decision D2 (log 14); that the odd ports 0xC1 to 0xDF are unbound is its decision D3, D4 (log 16). (derived:
40_port_decoder.md section 3) -/
def Obligations.UnboundPortsReadAllOnesAndDiscardWrites : Prop :=
  ∀ (p : Port) (d : Byte) (s : State),
    (p.toNat = 0x62 ∨ p.toNat = 0x63 ∨ (0x65 ≤ p.toNat ∧ p.toNat ≤ 0x6F) ∨
        (0xC1 ≤ p.toNat ∧ p.toNat ≤ 0xDF ∧ p.toNat % 2 = 1)) →
    decode ⟨.port .read .byte, p, 0⟩ = .ok (.iorUnmapped p) ∧ decode ⟨.port .write .byte, p, d.setWidth 16⟩ = .ok (.iowUnmapped p d) ∧
    exec (.iorUnmapped p) s = .next { s with ret := .u8 0xFF } ∧
    exec (.iowUnmapped p d) s = .next s

/-- A port above 0xDF changes nothing in the block and calls no one; unclaimed, it reads 0xFF. For every port from
0xE0 up: a read changes no field of S, emits no action, takes no collaborator's answer and leaves memory alone; it
returns the byte of the device that answers, and 0xFF when no other device answers; a write changes nothing at all.
Which of the two happens, and the byte, are a free choice of the platform, held in the model's own list platformReads
(log 8); that no port from 0xE0 up is the block's is the spec's own decision D1 (log 13), and 0xFF is its decision D2
(log 14). (derived: 40_port_decoder.md section 3) -/
def Obligations.UndecodedPortsLeaveTheBlockAlone : Prop :=
  ∀ (p : Port) (d : Byte) (s : State), 0xE0 ≤ p.toNat →
    decode ⟨.port .read .byte, p, 0⟩ = .ok (.iorNoclaim p) ∧ decode ⟨.port .write .byte, p, d.setWidth 16⟩ = .ok (.iowNoclaim p d) ∧
    exec (.iorNoclaim p) s = .next
      { s with
        platformReads := s.platformReads.tail
        draws := if s.platformReads.isEmpty then s.draws + 1 else s.draws
        ret := .u8 (s.platformAnswer.getD 0xFF) } ∧
    (∀ (b : Byte) (rest : List (Option Byte)), s.platformReads = some b :: rest →
      exec (.iorNoclaim p) s = .next { s with platformReads := rest, ret := .u8 b }) ∧
    (∀ rest : List (Option Byte), s.platformReads = none :: rest →
      exec (.iorNoclaim p) s = .next { s with platformReads := rest, ret := .u8 0xFF }) ∧
    exec (.iowNoclaim p d) s = .next s

/-- A word read is the two byte reads of its ports, the lower port first, and a call-back can fall between them. For
every port (odd ones, owners' borders and 0xFFFF included) and every state: the word read decodes to IOR16; the byte
read the decoder selects for p answers a state s1 and a byte lo. With no call-back next in line, the byte read
selected for p + 1 (wrapping) answers from s1 a state s2 and a byte hi, and IOR16 answers exactly s2 with hi ++ lo
returned. With a call-back next in line, IOR16 answers s1 with the second half still to come and nothing returned yet.
In every state that holds such a second half, with no call-back next and no teardown, the step takes no input and
answers exactly what the byte read of p + 1 answers there, with its byte above the one already read returned. The
split and its order are the spec's own decision D3 (log 15); that a call-back is an input that stands behind the word
access, and the second half a field of State, is the model's choice (log 34). (derived: 40_port_decoder.md section 4,
20_memory.md section 2) -/
def Obligations.WordReadIsTwoByteReads : Prop :=
  ∀ (p : Port) (s : State),
    decode ⟨.port .read .word, p, 0⟩ = .ok (.ior16 p) ∧
    ∃ (i j : Instr) (s1 : State) (lo : Byte),
      decode ⟨.port .read .byte, p, 0⟩ = .ok i ∧ decode ⟨.port .read .byte, p + 1, 0⟩ = .ok j ∧
      exec i s = .next s1 ∧ s1.ret = .u8 lo ∧
      (s.callBackNext = false → ∃ (s2 : State) (hi : Byte),
        exec j s1 = .next s2 ∧ s2.ret = .u8 hi ∧ exec (.ior16 p) s = .next { s2 with ret := .u16 (hi ++ lo) }) ∧
      (s.callBackNext = true → exec (.ior16 p) s = .next { s1 with half := some (.read (p + 1) lo), ret := s.ret }) ∧
      ∀ (u : State) (b : Byte), u.stopped = false → u.half = some (.read (p + 1) b) → u.callBackNext = false →
        ∃ (u2 : State) (hi : Byte),
          exec j { u with half := none, actions := [], ret := .none } = .next u2 ∧ u2.ret = .u8 hi ∧
          step u = .next { u2 with ret := .u16 (hi ++ b) }

/-- A word write is the two byte writes of its ports, the lower port first, and a call-back can fall between them. For
every port, word and state: the word write decodes to IOW16; the byte write of bits 7:0 the decoder selects for p
answers s1. With no call-back next in line, the byte write of bits 15:8 selected for p + 1 (wrapping) answers s2 from
s1, and IOW16 answers exactly s2. With a call-back next in line, IOW16 answers s1 with the second half still to come.
In every state that holds this second half, with no call-back next and no teardown, the step takes no input and
answers exactly what the byte write of bits 15:8 answers there. The split and its order are the spec's own decision D3
(log 15); that a call-back is an input that stands behind the word access, and the second half a field of State, is
the model's choice (log 34). (derived: 40_port_decoder.md section 4, 20_memory.md section 2) -/
def Obligations.WordWriteIsTwoByteWrites : Prop :=
  ∀ (p : Port) (w : Word) (s : State),
    decode ⟨.port .write .word, p, w⟩ = .ok (.iow16 p w) ∧
    ∃ (i j : Instr) (s1 : State),
      decode ⟨.port .write .byte, p, (w.extractLsb' 0 8).setWidth 16⟩ = .ok i ∧
      decode ⟨.port .write .byte, p + 1, (w.extractLsb' 8 8).setWidth 16⟩ = .ok j ∧
      exec i s = .next s1 ∧
      (s.callBackNext = false → ∃ s2 : State, exec j s1 = .next s2 ∧ exec (.iow16 p w) s = .next s2) ∧
      (s.callBackNext = true →
        exec (.iow16 p w) s = .next { s1 with half := some (.write (p + 1) (w.extractLsb' 8 8)) }) ∧
      ∀ u : State, u.stopped = false → u.half = some (.write (p + 1) (w.extractLsb' 8 8)) → u.callBackNext = false →
        ∃ u2 : State, exec j { u with half := none, actions := [], ret := .none } = .next u2 ∧ step u = .next u2

/-- The offsets 1, 2, 3, 7 of a page block read and write page registers 2, 3, 1, 0 of the block's set. For every port
of 0x80 to 0x9F whose offset in its block is 1, 2, 3 or 7, every byte and every state: a read returns, and a write
stores the whole byte in, register 2, 3, 1 or 0 of the byte set (port bit 3 = 0) or the word set (bit 3 = 1), port bit
4 taking no part; nothing else changes, whoever owns the bus. Which offset reaches which register and which blocks
repeat are the spec's own decisions D6, D7 (log 17, 18). (derived: 41_dma_page_xlat.md section 1) -/
def Obligations.PageSelectPortsReachTheirRegister : Prop :=
  ∀ (p : Port) (d : Byte) (s : State) (k : Nat) (i : Fin 4),
    (k, i) ∈ ([(1, 2), (2, 3), (3, 1), (7, 0)] : List (Nat × Fin 4)) →
    0x80 ≤ p.toNat → p.toNat ≤ 0x9F → p.toNat % 8 = k →
    decode ⟨.port .read .byte, p, 0⟩ = .ok (.iorPageSel p) ∧ decode ⟨.port .write .byte, p, d.setWidth 16⟩ = .ok (.iowPageSel p d) ∧
    (p.toNat / 8 % 2 = 0 →
      exec (.iorPageSel p) s = .next { s with ret := .u8 (s.page8.get i) } ∧
      exec (.iowPageSel p d) s = .next { s with page8 := s.page8.set i.val d i.isLt }) ∧
    (p.toNat / 8 % 2 = 1 →
      exec (.iorPageSel p) s = .next { s with ret := .u8 (s.page16.get i) } ∧
      exec (.iowPageSel p d) s = .next { s with page16 := s.page16.set i.val d i.isLt })

/-- The other offsets of a page block read and write the readback store only. For every port of 0x80 to 0x9F whose
offset in its block is 0, 4, 5 or 6, every byte and every state: a read returns, and a write changes, element (port
mod 16) of the readback store; nothing else changes, no page register included. That the store has 16 bytes, indexed
by port mod 16, is the spec's own decision D8 (log 18). (derived: 41_dma_page_xlat.md section 1) -/
def Obligations.GenericPagePortsTouchOnlyTheReadbackStore : Prop :=
  ∀ (p : Port) (d : Byte) (s : State) (g : Fin 16),
    0x80 ≤ p.toNat → p.toNat ≤ 0x9F → p.toNat % 8 ∈ [0, 4, 5, 6] → g.val = p.toNat % 16 →
    decode ⟨.port .read .byte, p, 0⟩ = .ok (.iorPageGen p) ∧ decode ⟨.port .write .byte, p, d.setWidth 16⟩ = .ok (.iowPageGen p d) ∧
    exec (.iorPageGen p) s = .next { s with ret := .u8 (s.gen.get g) } ∧
    exec (.iowPageGen p d) s = .next { s with gen := s.gen.set g.val d g.isLt }

/-- A byte written to a page port reads back at that port and its repeat, and every other page port reads as before.
For every two ports p and q of 0x80 to 0x9F, every byte and state: writing d to p answers a next state in which
reading q returns d if q = p mod 16 and otherwise the byte that reading q returned before. The repeat of the blocks
and the size of the store are the spec's own decisions D7, D8 (log 18). (derived: 41_dma_page_xlat.md section 1,
95_test_vectors.md section 1) -/
def Obligations.PagePortWriteReadsBackThereAndOnlyThere : Prop :=
  ∀ (p q : Port) (d : Byte) (s : State),
    0x80 ≤ p.toNat → p.toNat ≤ 0x9F → 0x80 ≤ q.toNat → q.toNat ≤ 0x9F →
    ∃ (t : State) (v : Byte),
      exec (decodeWrite p d) s = .next t ∧
      exec (decodeRead q) s = .next { s with ret := .u8 v } ∧
      exec (decodeRead q) t = .next { t with ret := .u8 (if q.toNat % 16 = p.toNat % 16 then d else v) }

/-- The readback store has no effect on any other operation. For every well-formed operation but the readback ports'
own accesses and the word port accesses: the contents of the readback store change nothing of what it does: the next
state is the same but for the store itself, which stays as it was. That RESET leaves the store is the spec's own
decision D26 (log 30), and that IOW.PAGE.SEL neither writes it nor reads it is its decision D8 (log 18). (derived:
10_state.md section 2, 41_dma_page_xlat.md section 1, 70_reset_and_hazards.md section 1) -/
def Obligations.ReadbackStoreReachesNothing : Prop :=
  ∀ (i : Instr) (s t : State) (g : Vector Byte 16), i.wf = true → exec i s = .next t →
    (∀ p, i ≠ .iorPageGen p) → (∀ p d, i ≠ .iowPageGen p d) → (∀ p, i ≠ .ior16 p) → (∀ p w, i ≠ .iow16 p w) →
    t.gen = s.gen ∧ exec i { s with gen := g } = .next { t with gen := g }

/-- A byte transfer's address is the page above the 16-bit offset, and the sum never carries. For every page and
offset: the address is (page << 16) + offset in 24 bits, equals the concatenation, and as a number is page * 65536 +
offset, so it stays inside the page's 64 KiB window. (stated: R61) -/
def Obligations.ByteAddressIsPageOverOffset : Prop :=
  ∀ (page : Byte) (off : Word),
    byteAddr page off = (page.setWidth 24 <<< 16) + off.setWidth 24 ∧
    byteAddr page off = page ++ off ∧
    (byteAddr page off).toNat = page.toNat * 65536 + off.toNat

/-- A word transfer's address is page[7:1] above the offset above a zero bit. For every page and offset: the address
is ((page << 16) & 0xFE0000) | (offset << 1) in 24 bits; as a number it is (page / 2) * 131072 + 2 * offset, so it is
even and stays inside the even page's 128 KiB window; pages 2k and 2k + 1 give the same address. The mask's number is
the spec's own decision D9 (log 19). (derived: 20_memory.md section 4) -/
def Obligations.WordAddressIsEvenAndIgnoresThePagesLowBit : Prop :=
  ∀ (page : Byte) (off : Word),
    wordAddr page off = ((page.setWidth 24 <<< 16) &&& 0xFE0000) ||| (off.setWidth 24 <<< 1) ∧
    (wordAddr page off).toNat = page.toNat / 2 * 131072 + 2 * off.toNat ∧
    ∀ page' : Byte, page'.toNat / 2 = page.toNat / 2 → wordAddr page' off = wordAddr page off

/-- DMARD8 returns 0xFF with no owner and the byte at the owner's page otherwise. For every address and state: with no
owner DMARD8 returns 0xFF and changes nothing else; with an owner of the byte set it makes the one query Mem.read8 at
ByteAddr of the owner's page register and returns its answer, which is the byte last written there if there is one
(the model's reading of one coherent memory, log 5) and the environment's otherwise; nothing else changes. That the
owner is the expansion-bus channel is the spec's own decision D10 (log 20). (derived: 41_dma_page_xlat.md section 2,
20_memory.md section 5) -/
def Obligations.ByteTransferReadUsesTheOwnersPage : Prop :=
  ∀ (a : Word) (s : State),
    (s.owner = .idle → exec (.dmard8 a) s = .next { s with ret := .u8 0xFF }) ∧
    ∀ (c : Fin 8) (i : Fin 4), s.owner = .owned c → i.val = c.val →
      exec (.dmard8 a) s = .next
        { s.byteQueried (.memRead8 (byteAddr (s.page8.get i) a)) with
          ret := .u8 ((s.byteAt (byteAddr (s.page8.get i) a)).getD (s.answer.setWidth 8)) }

/-- DMAWR8 does nothing with no owner and writes one byte at the owner's page otherwise. For every address, byte and
state: with no owner nothing changes; with an owner of the byte set the one action is Mem.write8 at ByteAddr of the
owner's page register, that byte of memory holds the data and every other byte of memory reads as before, and nothing
else changes; with an owner of the word set the operation is refused. That the owner is the expansion-bus channel and
that the other set is refused are the spec's own decisions D10, D12 (log 20, 10). (derived: 41_dma_page_xlat.md
section 2, 20_memory.md section 5) -/
def Obligations.ByteTransferWriteUsesTheOwnersPage : Prop :=
  ∀ (a : Word) (d : Byte) (s : State),
    (s.owner = .idle → exec (.dmawr8 a d) s = .next s) ∧
    (∀ (c : Fin 8) (i : Fin 4), s.owner = .owned c → i.val = c.val →
      ∃ t : State, exec (.dmawr8 a d) s = .next t ∧
        t.actions = s.actions ++ [.memWrite8 (byteAddr (s.page8.get i) a) d] ∧
        t.byteAt (byteAddr (s.page8.get i) a) = some d ∧
        (∀ x : PhysAddr, x ≠ byteAddr (s.page8.get i) a → t.byteAt x = s.byteAt x) ∧
        { t with actions := s.actions, mem := s.mem } = s) ∧
    (∀ c : Fin 8, s.owner = .owned c → 5 ≤ c.val → exec (.dmawr8 a d) s = .refused .pathOwnerMismatch)

/-- DMARD16 returns the low byte at the owner's page and latches the high byte, and latches nothing with no owner. For
every address and state: with no owner DMARD16 returns 0xFF and changes nothing else, the latch included; with an
owner of the word set (channel 5, 6 or 7) it makes the one query Mem.read16 at WordAddr of the owner's page register,
returns the low byte of the word and puts the high byte in the latch; each byte of the word is the byte last written
there if there is one (log 5) and the environment's otherwise; nothing else changes. The mask, the byte order, and
that the owner's number selects the word set's register c - 4 are the spec's own decisions D9, D3, D10 (log 19, 15,
20). (derived: 41_dma_page_xlat.md section 2, 20_memory.md sections 2 and 5) -/
def Obligations.WordTransferReadLatchesTheHighByte : Prop :=
  ∀ (a : Word) (s : State),
    (s.owner = .idle → exec (.dmard16 a) s = .next { s with ret := .u8 0xFF }) ∧
    ∀ (c : Fin 8) (j : Fin 4), s.owner = .owned c → c.val = j.val + 4 → c ≠ 4 →
      exec (.dmard16 a) s = .next
        { s.byteQueried (.memRead16 (wordAddr (s.page16.get j) a)) with
          hiLatch := (s.byteAt (wordAddr (s.page16.get j) a + 1)).getD (s.answer.extractLsb' 8 8)
          ret := .u8 ((s.byteAt (wordAddr (s.page16.get j) a)).getD (s.answer.extractLsb' 0 8)) }

/-- DMAWR16 writes the latch and the byte as one word at the owner's page. For every address, byte and state: with no
owner nothing changes; with an owner of the word set (channel 5, 6 or 7) the one action is Mem.write16 of the latch
above the byte at WordAddr of the owner's page register, the byte lies at that address and the latch at the next one,
every other byte of memory reads as before, and nothing else changes, the latch included; with an owner of the byte
set the operation is refused. The mask, the byte order, that the owner's number selects the word set's register c - 4,
and the refusal are the spec's own decisions D9, D3, D10, D12 (log 19, 15, 20, 10). (derived: 41_dma_page_xlat.md
section 2, 20_memory.md sections 2 and 5) -/
def Obligations.WordTransferWriteJoinsLatchAndByte : Prop :=
  ∀ (a : Word) (d : Byte) (s : State),
    (s.owner = .idle → exec (.dmawr16 a d) s = .next s) ∧
    (∀ (c : Fin 8) (j : Fin 4), s.owner = .owned c → c.val = j.val + 4 → c ≠ 4 →
      ∃ t : State, exec (.dmawr16 a d) s = .next t ∧
        t.actions = s.actions ++ [.memWrite16 (wordAddr (s.page16.get j) a) (s.hiLatch ++ d)] ∧
        t.byteAt (wordAddr (s.page16.get j) a) = some d ∧
        t.byteAt (wordAddr (s.page16.get j) a + 1) = some s.hiLatch ∧
        (∀ x : PhysAddr, x ≠ wordAddr (s.page16.get j) a → x ≠ wordAddr (s.page16.get j) a + 1 →
          t.byteAt x = s.byteAt x) ∧
        { t with actions := s.actions, mem := s.mem } = s) ∧
    (∀ c : Fin 8, s.owner = .owned c → c.val ≤ 3 → exec (.dmawr16 a d) s = .refused .pathOwnerMismatch)

/-- A memory-side transfer whose path and owner disagree has no meaning. For every state whose owner is a channel of
the word set both byte transfers are refused, and for every state whose owner is a channel of the byte set both word
transfers are refused, under the name pathOwnerMismatch. The refusal is the spec's own decision D12 (log 10).
(derived: 41_dma_page_xlat.md section 2) -/
def Obligations.MismatchedTransfersAreRefused : Prop :=
  ∀ (a : Word) (d : Byte) (s : State) (c : Fin 8), s.owner = .owned c →
    (5 ≤ c.val → exec (.dmard8 a) s = .refused .pathOwnerMismatch ∧
      exec (.dmawr8 a d) s = .refused .pathOwnerMismatch) ∧
    (c.val ≤ 3 → exec (.dmard16 a) s = .refused .pathOwnerMismatch ∧
      exec (.dmawr16 a d) s = .refused .pathOwnerMismatch)

/-- A word moved through the latch arrives whole, in both directions, and reads back as its two bytes. (a) With word
channel j + 4 owning the bus, DIOR16 answered w by the bus and then DMAWR16 of the byte returned emit exactly the
write of w at WordAddr of the channel's page; (c) that word then reads back, through DMARD8 with a byte channel owning
the bus, as w[7:0] at the even address and w[15:8] at the next. (b) With word channel j + 4 owning the bus and the
word hi ++ lo in memory at the address, DMARD16 returns lo and then DIOW16 of lo sends exactly hi ++ lo to the bus.
The spec marks the law as derived, on its own byte order, mask and owner number D3, D9, D10 (log 15, 19, 20), and
memory is one coherent store (log 5). (derived: 41_dma_page_xlat.md section 3) -/
def Obligations.WordTransfersRoundTripThroughTheLatch : Prop :=
  (∀ (s : State) (c : Fin 8) (j : Fin 4) (a w : Word) (rest : List Word),
      s.owner = .owned c → c.val = j.val + 4 → c ≠ 4 → s.answers = w :: rest →
      ∃ s1 s2 : State,
        exec (.dior16 j) s = .next s1 ∧ s1.ret = .u8 (w.extractLsb' 0 8) ∧
        exec (.dmawr16 a (w.extractLsb' 0 8)) s1 = .next s2 ∧
        s2.actions = s.actions ++ [.busDack16R c, .memWrite16 (wordAddr (s.page16.get j) a) w] ∧
        ∀ (u : State) (i : Fin 4) (c' : Fin 8) (b : Word), u.mem = s2.mem → u.owner = .owned c' → c'.val = i.val →
          (byteAddr (u.page8.get i) b = wordAddr (s.page16.get j) a →
            ∃ t, exec (.dmard8 b) u = .next t ∧ t.ret = .u8 (w.extractLsb' 0 8)) ∧
          (byteAddr (u.page8.get i) b = wordAddr (s.page16.get j) a + 1 →
            ∃ t, exec (.dmard8 b) u = .next t ∧ t.ret = .u8 (w.extractLsb' 8 8))) ∧
    (∀ (s : State) (c : Fin 8) (j : Fin 4) (a : Word) (lo hi : Byte),
      s.owner = .owned c → c.val = j.val + 4 → c ≠ 4 →
      s.byteAt (wordAddr (s.page16.get j) a) = some lo → s.byteAt (wordAddr (s.page16.get j) a + 1) = some hi →
      ∃ s1 s2 : State,
        exec (.dmard16 a) s = .next s1 ∧ s1.ret = .u8 lo ∧
        exec (.diow16 j lo) s1 = .next s2 ∧
        s2.actions = s.actions ++ [.memRead16 (wordAddr (s.page16.get j) a), .busDack16W c (hi ++ lo)])

/-- The primary's hold request goes to channel 0 of the secondary DMA controller. For every level and state: HRQ1
emits Dma2.dreq(0, l) and nothing else of the state changes. That the designated channel is channel 0 of the secondary
is the spec's own decision D13 (log 20). (derived: 42_dma_arbiter.md section 2) -/
def Obligations.HoldRequestOfThePrimaryDrivesTheCascadeChannel : Prop :=
  ∀ (l : Bool) (s : State), exec (.hrq1 l) s = .next (s.withActions [.dma2Dreq 0 l])

/-- The secondary's hold request halts the CPU and is acknowledged at once; the cascade acknowledge reaches the
primary inverted. For every level and state: HRQ2 emits Cpu.halt(l) and then Dma2.hack(l); DACK4 emits Dma1.hack(1 -
l); nothing else of the state changes, the owner included. (stated: R151, R154) -/
def Obligations.HoldRequestOfTheSecondaryHaltsTheCpu : Prop :=
  ∀ (l : Bool) (s : State),
    exec (.hrq2 l) s = .next (s.withActions [.cpuHalt l, .dma2Hack l]) ∧
    exec (.dack4 l) s = .next (s.withActions [.dma1Hack (!l)])

/-- A grant makes the channel the owner, its release makes the bus idle, any other release is a no-op. For every
channel but 4 and every state: level 0 makes the channel the owner whoever owned the bus and, if the end-of-process
flag of the channel's controller is 1, emits Bus.eop(c, 1); level 1 on the owner's line makes the bus idle and, if
that flag is 1, emits Bus.eop(c, 0); level 1 on any other line changes nothing; nothing else changes, the flags
included. The polarity, the flag consulted and the grant while another channel owns the bus are the spec's own
decisions D14, D16, D11 (log 22, 23, 21). The numbering of the owner and the excluded channel 4 are the spec's own
decisions D10, D13 (log 20). (derived: 42_dma_arbiter.md sections 1 and 3) -/
def Obligations.AcknowledgeLinesMoveTheOwner : Prop :=
  ∀ (c : Fin 8) (s : State) (flag : Bool), c ≠ 4 → flag = (if c.val ≤ 3 then s.eop1 else s.eop2) →
    exec (.dack c false) s = .next
      (({ s with owner := .owned c }).withActions (if flag = true then [.busEop c true] else [])) ∧
    (s.owner = .owned c → exec (.dack c true) s = .next
      (({ s with owner := .idle }).withActions (if flag = true then [.busEop c false] else []))) ∧
    (s.owner ≠ .owned c → exec (.dack c true) s = .next s)

/-- An end-of-process line sets its controller's flag and is forwarded to the owner, if there is one. For every level
and state: EOP1 writes the level to the first flag and EOP2 to the second; with an owner the level is forwarded to it,
whichever controller it belongs to; with no owner nothing is forwarded; nothing else changes. That the flag copies the
line and that the owner's controller does not matter are the spec's own decision D15 (log 23). The numbering of the
owner is the spec's own decision D10 (log 20). (derived: 42_dma_arbiter.md section 4) -/
def Obligations.EndOfProcessFollowsItsLine : Prop :=
  ∀ (l : Bool) (s : State),
    (s.owner = .idle → exec (.eop1 l) s = .next { s with eop1 := l } ∧
      exec (.eop2 l) s = .next { s with eop2 := l }) ∧
    ∀ c : Fin 8, s.owner = .owned c →
      exec (.eop1 l) s = .next (({ s with eop1 := l }).withActions [.busEop c l]) ∧
      exec (.eop2 l) s = .next (({ s with eop2 := l }).withActions [.busEop c l])

/-- Byte transfers on the peripheral side go to the channel's device and back. For every channel of the primary
controller, byte and state: DIOR8 queries Bus.dack_r(c) and returns the low byte of the answer; DIOW8 emits
Bus.dack_w(c, d); nothing else changes, whoever owns the bus. (stated: R157, R158) -/
def Obligations.BytePeripheralTransfersAreRelayed : Prop :=
  ∀ (c : Fin 4) (d : Byte) (s : State),
    exec (.dior8 c) s = .next (s.byteQueried (.busDackR c)) ∧
    exec (.diow8 c d) s = .next (s.withActions [.busDackW c d])

/-- Word transfers on the peripheral side fill the latch when read and use it when written. For every channel within
the secondary controller, byte and state: DIOR16 queries Bus.dack16_r(j + 4), returns the low byte and latches the
high byte; DIOW16 emits Bus.dack16_w(j + 4, latch ++ d) and leaves the latch; nothing else changes. That the relay is
defined for the cascade channel too is the spec's own decision D31 (log 32). (derived: 42_dma_arbiter.md section 5) -/
def Obligations.WordPeripheralTransfersUseTheLatch : Prop :=
  ∀ (j : Fin 4) (ch : Fin 8) (d : Byte) (s : State), ch.val = j.val + 4 →
    exec (.dior16 j) s = .next
      { s.byteQueried (.busDack16R ch) with
        hiLatch := (s.answer >>> 8).setWidth 8, ret := .u8 (s.answer.setWidth 8) } ∧
    exec (.diow16 j d) s = .next (s.withActions [.busDack16W ch (s.hiLatch ++ d)])

/-- Request lines 0 to 3 go to the primary DMA controller and 5 to 7 to channels 1 to 3 of the secondary. For every
request line but 4, level and state: line n up to 3 emits Dma1.dreq(n, l), a higher line emits Dma2.dreq(n - 4, l);
nothing else changes. The routing is the spec's own decision D19 (log 25). The excluded line 4 is that of the cascade
channel, the spec's own decision D13 (log 20). (derived: 42_dma_arbiter.md section 6) -/
def Obligations.RequestLinesReachTheirController : Prop :=
  ∀ (n : Fin 8) (c : Fin 4) (l : Bool) (s : State), n ≠ 4 →
    (c.val = n.val → exec (.drq n l) s = .next (s.withActions [.dma1Dreq c l])) ∧
    (c.val + 4 = n.val → exec (.drq n l) s = .next (s.withActions [.dma2Dreq c l]))

/-- An end of process asserted while no one owns the bus reaches the next channel of that controller granted. For
every state with no owner and every channel but 4: asserting the end-of-process line of the channel's controller
forwards nothing; the grant of the channel that follows makes it the owner and emits Bus.eop(c, 1), and nothing else
is emitted. The polarity and the flag consulted are the spec's own decisions D14, D15, D16 (log 22, 23). The numbering
of the owner and the excluded channel 4 are the spec's own decisions D10, D13 (log 20). (derived:
70_reset_and_hazards.md section 3, 42_dma_arbiter.md sections 3 and 4) -/
def Obligations.PendingEndOfProcessIsDeliveredAtTheGrant : Prop :=
  ∀ (s : State) (c : Fin 8), s.owner = .idle → c ≠ 4 →
    ∃ s1 s2 : State,
      exec (if c.val ≤ 3 then .eop1 true else .eop2 true) s = .next s1 ∧ s1.actions = s.actions ∧
      exec (.dack c false) s1 = .next s2 ∧ s2.owner = .owned c ∧ s2.actions = s.actions ++ [.busEop c true]

/-- Peripheral-side transfers and page-port accesses do the same whoever owns the bus. For the four peripheral-side
transfers and the four page-port operations, every state and every other owner: the operation answers a next state,
and with the owner replaced it answers the same next state with the owner replaced. The relay on channel 0 of Dma2 is
the spec's own decision D31 (log 32), and the forms of the page ports are its decisions D6, D7, D8 (log 17, 18).
(derived: 42_dma_arbiter.md section 5, 41_dma_page_xlat.md section 1) -/
def Obligations.RelaysAndPagePortsIgnoreTheOwner : Prop :=
  ∀ (i : Instr) (s : State) (o : Owner),
    ((∃ c, i = .dior8 c) ∨ (∃ c d, i = .diow8 c d) ∨ (∃ j, i = .dior16 j) ∨ (∃ j d, i = .diow16 j d) ∨
      (∃ p, i = .iorPageSel p) ∨ (∃ p d, i = .iowPageSel p d) ∨ (∃ p, i = .iorPageGen p) ∨
      (∃ p d, i = .iowPageGen p d)) →
    ∃ t : State, exec i s = .next t ∧ exec i { s with owner := o } = .next { t with owner := o }

/-- The secondary's output drives input 2 of the primary and the primary's output drives the CPU. For every level and
state: INT2 emits Pic1.ir(2, l) and INT1 emits Cpu.intr(l); nothing else changes. (stated: R180, R181) -/
def Obligations.InterruptOutputsAreCascaded : Prop :=
  ∀ (l : Bool) (s : State),
    exec (.int2 l) s = .next (s.withActions [.picIr ⟨.pic1, 2⟩ l]) ∧
    exec (.int1 l) s = .next (s.withActions [.cpuIntr l])

/-- An acknowledge of input 2 returns the secondary's vector, of any other input 0x00. For every state: SLAVEACK 2
makes exactly one Pic2.acknowledge() query and returns its answer; SLAVEACK of any other input returns 0x00, makes no
query and takes no answer; nothing else changes. The default 0x00 is the spec's own decision D17 (log 24). (derived:
43_irq_cascade.md section 2) -/
def Obligations.CascadeAcknowledgeComesFromTheSecondary : Prop :=
  ∀ s : State,
    exec (.slaveack 2) s = .next (s.byteQueried .pic2Acknowledge) ∧
    ∀ n : Fin 8, n ≠ 2 → exec (.slaveack n) s = .next { s with ret := .u8 0x00 }

/-- Request lines reach the input their table gives; bus line 2 reaches input 2 of the secondary; none reaches the
cascade input. For every state whose tables meet the constraints, and every level: bus line 2 emits Pic2.ir(2, l); a
bus line of the table emits ir(l) on the input of its row, which is not the cascade input; an on-board source emits
ir(l) on its input, which is neither the cascade input nor an input of a bus line; nothing else changes. That the
tables are open, under these constraints, is the spec's own decision D18 (log 6). (derived: 43_irq_cascade.md section
3) -/
def Obligations.InterruptRequestLinesFollowTheirRoute : Prop :=
  ∀ (s : State) (l : Bool), s.board.wf = true →
    exec (.irq 2 l) s = .next (s.withActions [.picIr ⟨.pic2, 2⟩ l]) ∧
    (∀ (n : Nat) (dst : PicInput), irqRoute s.board n = some dst →
      dst ≠ ⟨.pic1, 2⟩ ∧ exec (.irq n l) s = .next (s.withActions [.picIr dst l])) ∧
    (∀ (src : OnboardSource) (dst : PicInput), onboardRoute s.board src = dst →
      dst ≠ ⟨.pic1, 2⟩ ∧ (∀ n : Nat, irqRoute s.board n ≠ some dst) ∧
      exec (.obirq src l) s = .next (s.withActions [.picIr dst l]))

/-- Nothing but INT2 drives input 2 of the primary controller, and INT2 drives nothing else. For every state whose
tables meet the constraints and every operation that answers a next state: the actions it adds hold a level for input
2 of Pic1 only if it is INT2 with that level; no row of such tables names input 2 of Pic1; and INT2's one action is
that level. (stated: R186) -/
def Obligations.OnlyTheSecondarysOutputDrivesTheCascadeInput : Prop :=
  (∀ (i : Instr) (s t : State), s.board.wf = true → exec i s = .next t →
      ∃ acts : List Action, t.actions = s.actions ++ acts ∧
        ∀ l : Bool, .picIr ⟨.pic1, 2⟩ l ∈ acts → i = .int2 l) ∧
    (∀ b : Board, b.wf = true →
      (∀ n : Nat, irqRoute b n ≠ some ⟨.pic1, 2⟩) ∧ ∀ src : OnboardSource, onboardRoute b src ≠ ⟨.pic1, 2⟩) ∧
    ∀ (l : Bool) (s : State), exec (.int2 l) s = .next (s.withActions [.picIr ⟨.pic1, 2⟩ l])

/-- The NMI state is 1 exactly when both flags are 0. For every state the value forwarded as NMI state is 1 if both
the NMI flag and the channel-check flag are 0, and 0 in the other three combinations. (stated: R192) -/
def Obligations.NmiStateIsBothFlagsClear : Prop :=
  ∀ s : State,
    (s.nmiState = true ↔ s.nmiEnabled = false ∧ s.channelCheck = false) ∧
    (s.nmiState = false ↔ s.nmiEnabled = true ∨ s.channelCheck = true)

/-- A write of port 0x70 stores bit 7, sends the clock the whole byte and forwards the NMI state. For every byte and
state: a byte write of port 0x70 decodes to IOW.RTC0, which sets the NMI flag to bit 7, emits Rtc.write(0, d) with the
whole byte and then Bus.nmi_state computed with the new flag; nothing else changes. That the clock receives the whole
byte, and the order of the two actions, are the spec's own decisions D20, D24 (log 26, 29). (derived:
44_nmi_diag_gate.md section 2) -/
def Obligations.ClockSelectWriteTakesTheNmiFlag : Prop :=
  ∀ (d : Byte) (s : State),
    decode ⟨.port .write .byte, 0x70, d.setWidth 16⟩ = .ok (.iowRtc0 d) ∧
    exec (.iowRtc0 d) s = .next
      (({ s with nmiEnabled := d.getLsbD 7 }).withActions
        [.rtcWrite 0 d, .busNmiState (!d.getLsbD 7 && !s.channelCheck)])

/-- A read of port 0x61 returns the stored byte with the toggle in bit 4 and timer output 2 in bit 5. For every state:
a byte read of port 0x61 decodes to IOR.PORTB, which makes one query of the refresh toggle and returns the byte whose
bit 4 is the answer, bit 5 the timer output copy, and every other bit the stored byte's; nothing else changes. The
positions of the two live bits and the draw of the toggle are the spec's own decisions D22, D23 (log 27, 28).
(derived: 44_nmi_diag_gate.md section 3, 10_state.md section 5) -/
def Obligations.DiagnosticsReadComposesStoredAndLiveBits : Prop :=
  ∀ s : State,
    decode ⟨.port .read .byte, 0x61, 0⟩ = .ok .iorPortb ∧
    ∃ v : Byte, exec .iorPortb s = .next { s.byteQueried .envRefreshToggle with ret := .u8 v } ∧
      ∀ n : Nat, n < 8 → v.getLsbD n =
        (if n = 4 then s.answer.getLsbD 0 else if n = 5 then s.pitOut2 else s.portb.getLsbD n)

/-- Every write of port 0x70 or 0x61 ends by forwarding the NMI state, and no other operation forwards it. For every
state and every operation that answers a next state, word writes aside (they are two byte writes): if it is IOW.RTC0
or IOW.PORTB the last action it adds is Bus.nmi_state of the state after the write; if it adds a Bus.nmi_state action
at all it is one of these two. That it is forwarded whether or not it changed is the spec's own decision D25 (log 29).
That RESET forwards nothing is its decision D26 (log 30). (derived: 44_nmi_diag_gate.md section 1,
70_reset_and_hazards.md section 1) -/
def Obligations.NmiStateIsForwardedByItsTwoWritesOnly : Prop :=
  ∀ (i : Instr) (s t : State), (∀ p w, i ≠ .iow16 p w) → exec i s = .next t →
    ∃ acts : List Action, t.actions = s.actions ++ acts ∧
      ((∃ d, i = .iowRtc0 d ∨ i = .iowPortb d) → acts.getLast? = some (.busNmiState t.nmiState)) ∧
      ∀ b : Bool, .busNmiState b ∈ acts → ∃ d, i = .iowRtc0 d ∨ i = .iowPortb d

/-- The speaker level is the speaker data bit AND timer output 2. For every state the speaker level is 1 exactly when
both the speaker data bit and the timer output copy are 1. (stated: R202) -/
def Obligations.SpeakerLevelIsDataAndTimerOutput : Prop :=
  ∀ s : State, s.speakerLevel = true ↔ s.spkrData = true ∧ s.pitOut2 = true

/-- A write of port 0x61 stores the byte and forwards the timer gate, the speaker level and the NMI state, in that
order. For every byte and state: a byte write of port 0x61 decodes to IOW.PORTB, which stores the whole byte, sets the
speaker data to bit 1 and the channel check to bit 3, and emits Pit.gate2(bit 0), the speaker level with the new data
bit, and the NMI state with the new channel check; nothing else changes. The order of the three actions is the spec's
own decision D24 (log 29). (derived: 45_speaker_timer_gate.md) -/
def Obligations.DiagnosticsWriteStoresAndForwardsThree : Prop :=
  ∀ (d : Byte) (s : State),
    decode ⟨.port .write .byte, 0x61, d.setWidth 16⟩ = .ok (.iowPortb d) ∧
    exec (.iowPortb d) s = .next
      (({ s with portb := d, spkrData := d.getLsbD 1, channelCheck := d.getLsbD 3 }).withActions
        [.pitGate2 (d.getLsbD 0), .spkLevel (d.getLsbD 1 && s.pitOut2),
          .busNmiState (!s.nmiEnabled && !d.getLsbD 3)])

/-- A report of timer output 2 is recorded and the speaker level forwarded. For every level and state: OUT2 writes the
level to the timer output copy and emits the speaker level computed with it, repeated level or not; nothing else
changes. That a repeated level is forwarded again is the spec's own decision D25 (log 29). (derived:
45_speaker_timer_gate.md) -/
def Obligations.TimerOutputIsRecordedAndTheLevelForwarded : Prop :=
  ∀ (l : Bool) (s : State),
    exec (.out2 l) s = .next (({ s with pitOut2 := l }).withActions [.spkLevel (s.spkrData && l)])

/-- Every write of port 0x61 and every OUT2 forwards the speaker level of the state after it, and no other operation
does. For every state and every operation that answers a next state, word writes aside: IOW.PORTB and OUT2 add a
Spk.level action with the speaker level of the state after the update; an operation that adds a Spk.level action at
all is one of these two. That it is forwarded whether or not it changed is the spec's own decision D25 (log 29). That
RESET forwards nothing is its decision D26 (log 30). (derived: 45_speaker_timer_gate.md, 70_reset_and_hazards.md
section 1) -/
def Obligations.SpeakerLevelIsForwardedByItsTwoSourcesOnly : Prop :=
  ∀ (i : Instr) (s t : State), (∀ p w, i ≠ .iow16 p w) → exec i s = .next t →
    ∃ acts : List Action, t.actions = s.actions ++ acts ∧
      (((∃ d, i = .iowPortb d) ∨ ∃ l, i = .out2 l) → .spkLevel t.speakerLevel ∈ acts) ∧
      ∀ b : Bool, .spkLevel b ∈ acts → (∃ d, i = .iowPortb d) ∨ ∃ l, i = .out2 l

/-- START registers the A20 callback exactly on a CPU that exposes it, and A20MASK needs the registration. For every
state: START answers a next state in which the callback is registered if it was or if the board's CPU has the
capability, and nothing else changes; without a registration A20MASK does not exist and is refused. That the
registration is a field of State and the refusal's name are the model's choice (log 7). That the capability is a
parameter is the spec's own decision D27 (log 6). (derived: 46_lifecycle.md) -/
def Obligations.StartRegistersTheA20CallbackIfTheCpuHasOne : Prop :=
  ∀ (l : Bool) (s : State),
    exec .start s = .next { s with a20Registered := s.a20Registered || s.board.cpuHasA20Gate } ∧
    (s.a20Registered = false → exec (.a20mask l) s = .refused .a20NotRegistered)

/-- The A20 mask is 0xFFFFFF with the line asserted and 0xEFFFFF with it deasserted. For every state in which the
callback is registered: A20MASK 1 returns 0xFFFFFF and A20MASK 0 returns 0xEFFFFF, which is 0xFFFFFF with bit 20
cleared; nothing else changes. That the registration is a field of State is the model's choice (log 7). (derived:
46_lifecycle.md) -/
def Obligations.A20MaskForcesBitTwentyLow : Prop :=
  ∀ s : State, s.a20Registered = true →
    exec (.a20mask true) s = .next { s with ret := .u24 0xFFFFFF } ∧
    exec (.a20mask false) s = .next { s with ret := .u24 0xEFFFFF } ∧
    (0xEFFFFF : PhysAddr) = 0xFFFFFF &&& ~~~(1 <<< 20 : PhysAddr)

/-- STOP changes no field of S and emits nothing, and no operation follows it. For every state: STOP answers a next
state that differs only in the mark of teardown (a field of the model, log 9), and every step after it is refused.
That STOP has no effect is the spec's own decision D28. (derived: 46_lifecycle.md, 93_implementation_defined.md
section 1) -/
def Obligations.StopWritesNothingAndEndsTheRun : Prop :=
  ∀ s : State, exec .stop s = .next { s with stopped := true } ∧
    step { s with stopped := true } = .refused .afterStop

/-- RESET clears the speaker data, assumes timer output 2 high, makes the bus idle, clears both end-of-process flags,
and nothing else. For every state RESET answers the state with exactly these five fields written; every other field,
every byte of memory and the list of actions are as they were. That the fields no list names stay, and that nothing is
emitted, are the spec's own decision D26 (log 30). (derived: 70_reset_and_hazards.md section 1) -/
def Obligations.ResetWritesFiveFieldsAndEmitsNothing : Prop :=
  ∀ s : State, exec .reset s = .next
    { s with spkrData := false, pitOut2 := true, owner := .idle, eop1 := false, eop2 := false }

/-- State.reset holds the five values of the reset list and RESET leaves it as it is. State.reset has no owner, both
end-of-process flags 0, the speaker data 0 and the timer output copy 1; RESET executed on it answers it unchanged.
Nothing is said of the fields whose value there is the model's choice (log 4). That State.reset is the state after
START and one RESET is log 33; that RESET leaves the fields no list names and emits nothing is the spec's own decision
D26 (log 30). (derived: 70_reset_and_hazards.md section 1, 10_state.md section 8) -/
def Obligations.ResetStateIsAfterReset : Prop :=
  State.reset.owner = .idle ∧ State.reset.eop1 = false ∧ State.reset.eop2 = false ∧
    State.reset.spkrData = false ∧ State.reset.pitOut2 = true ∧ exec .reset State.reset = .next State.reset

/-- A step runs the operation its first pending presentation decodes to. For every state that has not been torn down:
if the first pending input is a presentation that decodes to i, and no word access waits for its second half, the step
is exec of i at the state with that input taken and the last step's actions and return value cleared (the model's own
fields, log 2); the same for a call-back, whether or not a word access waits (log 34). (derived: 00_scope.md section
3, 30_encoding.md section 4, 20_memory.md section 2) -/
def Obligations.StepRunsTheDecodedOperation : Prop :=
  ∀ (s : State) (f : Frame) (i : Instr) (rest : List Input),
    s.stopped = false →
    (s.half = none ∧ s.inputs = .op f :: rest ∨
      ∃ (e : EventName) (a d : Word), f = ⟨.event e, a, d⟩ ∧ s.inputs = .callBack e a d :: rest) →
    decode f = .ok i →
    step s = exec i { s with inputs := rest, actions := [], ret := .none }

/-- With nothing pending nothing happens; a memory-side change writes one byte; an undecodable presentation is
refused. For every state that has not been torn down and in which no word access waits for its second half: with no
pending input the step only clears the last step's actions and return value; a pending change of memory writes that
byte, every other byte reads as before and nothing of S changes; a presentation that does not decode, call-back or
not, is refused with the decoder's reason. These are the model's choices (log 2, 5, 11, 34). (derived: 00_scope.md
section 3, 20_memory.md section 5, 10_state.md section 7) -/
def Obligations.StepsWithoutAnOperation : Prop :=
  ∀ s : State, s.stopped = false → s.half = none →
    (s.inputs = [] → step s = .next { s with actions := [], ret := .none }) ∧
    (∀ (a : PhysAddr) (d : Byte) (rest : List Input), s.inputs = .memStore a d :: rest →
      ∃ t : State, step s = .next t ∧ t.byteAt a = some d ∧ (∀ x, x ≠ a → t.byteAt x = s.byteAt x) ∧
        { t with mem := s.mem } = { s with inputs := rest, actions := [], ret := .none }) ∧
    (∀ (f : Frame) (rest : List Input) (e : DecodeError), s.inputs = .op f :: rest → decode f = .error e →
      step s = .refused (.undecodable e)) ∧
    (∀ (n : EventName) (a d : Word) (rest : List Input) (e : DecodeError),
      s.inputs = .callBack n a d :: rest → decode ⟨.event n, a, d⟩ = .error e → step s = .refused (.undecodable e))

/-- A step answers a next state exactly when nothing the spec excludes is pending. For every state: the step answers a
next state if and only if the machine has not been torn down and what is due, if anything, is a change of memory, the
second half of a word access, or an operation or call-back that decodes and is admissible: no memory-side transfer
whose path and owner disagree, no IRQ outside its table, no unregistered A20MASK. The refusals are the model's choices
and the spec's own decisions, each logged: the A20 registration a field of State (log 7), the mark of teardown (log
9), the mismatched transfer, D12 (log 10), undecodable frames and lines outside the table (log 11). The second half of
a word access as a field of State is log 34. (derived: 60_exceptions.md section 1, 30_encoding.md section 5) -/
def Obligations.StepAnswersNextExactlyWhenReady : Prop :=
  ∀ s : State, (∃ t : State, step s = .next t) ↔ s.ready = true

/-- Nothing the CPU can send through the ports is illegal: a run of port accesses never stops. For every state that
has not been torn down and whose pending inputs are byte and word port accesses at any ports with any data, and
changes of memory, a word access waiting for its second half or not: the run never stops, whatever its length. The
idle step, the changes of memory between operations, the mark of teardown and the second half as a field are the
model's (log 2, 5, 9, 34). (derived: 30_encoding.md section 5, 60_exceptions.md section 1) -/
def Obligations.CpuAccessesNeverStopTheMachine : Prop :=
  ∀ (n : Nat) (s : State), s.stopped = false →
    (∀ x ∈ s.inputs, (∃ a d, x = .memStore a d) ∨
      (∃ p : Port, x = .op ⟨.port .read .byte, p, 0⟩ ∨ x = .op ⟨.port .read .word, p, 0⟩) ∨
      (∃ (p : Port) (d : Byte), x = .op ⟨.port .write .byte, p, d.setWidth 16⟩) ∨
      (∃ (p : Port) (w : Word), x = .op ⟨.port .write .word, p, w⟩)) →
    SafeRun n s

/-- Every step keeps the invariant: no cascade owner, canonical memory, constrained tables, A20 only where the CPU has
it. For every state that meets the invariant, if the step answers a next state, that state meets it: the owner is
never channel 4, memory keeps its canonical form inside the 24-bit space, the routing tables keep their constraints,
and the A20 callback is registered only on a CPU that exposes it. The values an owner can take, the constraints on the
tables and the capability behind the A20 callback come from the cited sections; the rest is the model's choice: memory
as a list of written bytes in a canonical form (log 5; 20_memory.md section 1 gives the 24-bit space alone), the
tables and the capability as a field board that no step writes (log 6, on the spec's own decisions D18, D27), the A20
registration as a field that only START sets (log 7). That the channel no owner can be is number 4 is the spec's own
decision D13, on the owner numbering D10 (log 20). (derived: 10_state.md section 6, 43_irq_cascade.md sections 1 and
3, 46_lifecycle.md, 20_memory.md section 1) -/
def Obligations.EveryStepKeepsTheInvariant : Prop :=
  ∀ s t : State, s.Inv → step s = .next t → t.Inv

/-- The state after reset meets the invariant. State.reset has no owner, its memory has the canonical form, its tables
meet their constraints, and the A20 callback is registered there only if the board's CPU exposes it. The clauses of
the invariant rest on the choices named at EveryStepKeepsTheInvariant (log 5, 6, 7, 20). At reset these are the
model's choices: that memory lists nothing (log 5), that the board is a free one that meets the constraints (log 6),
and that State.reset is the state after START and one RESET, so that the A20 registration there is the board's
capability (log 7, 33). (derived: 10_state.md section 6, 43_irq_cascade.md sections 1 and 3, 46_lifecycle.md,
70_reset_and_hazards.md section 1) -/
def Obligations.ResetMeetsTheInvariant : Prop :=
  State.reset.Inv

/-- The channel check stays bit 3 of the stored port 0x61 byte, and speaker data set stays bit 1 of it. For every
state in which the channel check equals bit 3 of the stored byte and speaker data 1 implies bit 1 of it is 1 (as after
any write of port 0x61), if the step answers a next state, that state has both properties; a reset may clear the
speaker data but nothing sets it apart from the byte. That a reset leaves the stored byte and the channel check as
they are is the spec's own decision D26 (log 30). (derived: 10_state.md sections 4 to 6) -/
def Obligations.StepKeepsPortbFlagsInSync : Prop :=
  ∀ s t : State, s.PortbInSync → step s = .next t → t.PortbInSync

/-- Each field is changed only by the operations its rule names. For every well-formed operation that answers a next
state, word writes aside (they are two byte writes): a field that differs afterwards names the operation: page
registers IOW.PAGE.SEL, the readback store IOW.PAGE.GEN, the latch DMARD16 or DIOR16, the owner DACK or RESET, the
end-of-process flags EOP1, EOP2 or RESET, the NMI flag IOW.RTC0, channel check and stored byte IOW.PORTB, speaker data
IOW.PORTB or RESET, timer output copy OUT2 or RESET, memory DMAWR8 or DMAWR16, a second half still to come IOR16; the
tables never change. That RESET leaves the readback store, the NMI flag, the channel check and the stored byte is the
spec's own decision D26 (log 30); that IOW.PAGE.SEL leaves the readback store is its decision D8 (log 18). Memory as a
field of State and the board as one that no step writes are the model's choices (log 5, 6), and so is the second half
of a word access as a field (log 34). (derived: 10_state.md sections 1 to 6, 70_reset_and_hazards.md section 1,
20_memory.md section 1, 43_irq_cascade.md section 3) -/
def Obligations.EachFieldHasItsOwnWriters : Prop :=
  ∀ (i : Instr) (s t : State), i.wf = true → (∀ p w, i ≠ .iow16 p w) → exec i s = .next t →
    (t.page8 ≠ s.page8 → ∃ p d, i = .iowPageSel p d) ∧
    (t.page16 ≠ s.page16 → ∃ p d, i = .iowPageSel p d) ∧
    (t.gen ≠ s.gen → ∃ p d, i = .iowPageGen p d) ∧
    (t.hiLatch ≠ s.hiLatch → (∃ a, i = .dmard16 a) ∨ ∃ j, i = .dior16 j) ∧
    (t.owner ≠ s.owner → (∃ c l, i = .dack c l) ∨ i = .reset) ∧
    (t.eop1 ≠ s.eop1 → (∃ l, i = .eop1 l) ∨ i = .reset) ∧
    (t.eop2 ≠ s.eop2 → (∃ l, i = .eop2 l) ∨ i = .reset) ∧
    (t.nmiEnabled ≠ s.nmiEnabled → ∃ d, i = .iowRtc0 d) ∧
    (t.channelCheck ≠ s.channelCheck → ∃ d, i = .iowPortb d) ∧
    (t.portb ≠ s.portb → ∃ d, i = .iowPortb d) ∧
    (t.spkrData ≠ s.spkrData → (∃ d, i = .iowPortb d) ∨ i = .reset) ∧
    (t.pitOut2 ≠ s.pitOut2 → (∃ l, i = .out2 l) ∨ i = .reset) ∧
    (t.mem ≠ s.mem → (∃ a d, i = .dmawr8 a d) ∨ ∃ a d, i = .dmawr16 a d) ∧
    (t.half ≠ s.half → ∃ p, i = .ior16 p) ∧
    t.board = s.board

/-- Every operation but DMAWR8 and DMAWR16 leaves every byte of memory as it was. For every state and every operation
but the two memory-side writes, word port accesses included: if it answers a next state, every byte of memory reads
afterwards as before. Memory as a list of written bytes in State is the model's choice (log 5); that RESET touches
nothing beyond its list is the spec's own decision D26 (log 30). (derived: 30_encoding.md section 8, 20_memory.md
section 1) -/
def Obligations.OnlyMemoryWritesTouchMemory : Prop :=
  ∀ (i : Instr) (s t : State), (∀ a d, i ≠ .dmawr8 a d) → (∀ a d, i ≠ .dmawr16 a d) → exec i s = .next t →
    ∀ x : PhysAddr, t.byteAt x = s.byteAt x

/-- An operation only adds actions at the end of the step's list, and consumes nothing of what is pending. For every
state and operation that answers a next state: the list of actions before is the beginning of the list after, and the
pending inputs are as before. That an operation leaves the pending inputs alone rests on the model's own list of
inputs (log 2). (derived: 00_scope.md sections 3 and 5) -/
def Obligations.OperationsOnlyAppendActions : Prop :=
  ∀ (i : Instr) (s t : State), exec i s = .next t → s.actions <+: t.actions ∧ t.inputs = s.inputs
end

