-- ==== Sys2Proof/Laws/Decode.lean ====
section
/-! SUPPORT. The port ladder of 30_encoding.md R87 by ranges of the port number, and what each operand field and event
format reads. -/

namespace Sys2Proof

/-! ## Bits of a port as arithmetic -/

theorem Port.highByte_ne_zero_iff (p : Port) : p.extractLsb' 8 8 ≠ 0 ↔ 0x100 ≤ p.toNat := by
  rw [Ne, ← BitVec.toNat_inj]
  have := p.isLt
  simp only [BitVec.extractLsb'_toNat, Nat.shiftRight_eq_div_pow, BitVec.ofNat_eq_ofNat, BitVec.toNat_ofNat]
  omega

theorem Port.pageOffset_mem_iff (p : Port) :
    p.extractLsb' 0 3 ∈ [1#3, 2#3, 3#3, 7#3] ↔ p.toNat % 8 ∈ [1, 2, 3, 7] := by
  simp only [List.mem_cons, ← BitVec.toNat_inj, BitVec.extractLsb'_toNat, Nat.shiftRight_zero, BitVec.toNat_ofNat,
    List.not_mem_nil, or_false, Nat.reducePow, Nat.reduceMod]

theorem Port.bit0_eq_false_iff (p : Port) : p.getLsbD 0 = false ↔ p.toNat % 2 = 0 := by
  simp [BitVec.getLsbD, Nat.testBit_zero]

/-- The ladder of R87 on the port's number. -/
theorem portClass_eq (p : Port) :
    portClass p =
      if 0xE0 ≤ p.toNat then .noclaim
      else if p.toNat ≤ 0x1F then .dma1
      else if p.toNat ≤ 0x3F then .pic1
      else if p.toNat ≤ 0x5F then .pit
      else if p.toNat = 0x60 then .kbdData
      else if p.toNat = 0x61 then .portb
      else if p.toNat = 0x64 then .kbdControl
      else if p.toNat ≤ 0x6F then .unmapped
      else if p.toNat = 0x70 then .rtcSelect
      else if p.toNat ≤ 0x7F then .rtc
      else if p.toNat ≤ 0x9F ∧ p.toNat % 8 ∈ [1, 2, 3, 7] then .pageSel
      else if p.toNat ≤ 0x9F then .pageGen
      else if p.toNat ≤ 0xBF then .pic2
      else if p.toNat % 2 = 0 then .dma2
      else .unmapped := by
  have h0 : (p.extractLsb' 8 8 ≠ 0 ∨ 0xE0 ≤ p) ↔ 0xE0 ≤ p.toNat := by
    rw [Port.highByte_ne_zero_iff, BitVec.le_def]
    simp only [BitVec.ofNat_eq_ofNat, BitVec.toNat_ofNat]
    omega
  unfold portClass
  rw [if_congr h0 rfl rfl]
  simp only [Port.pageOffset_mem_iff, Port.bit0_eq_false_iff, BitVec.le_def, ← BitVec.toNat_inj,
    BitVec.ofNat_eq_ofNat, BitVec.toNat_ofNat, Nat.reduceMod, Nat.reducePow]

/-! ## The class of a port, range by range -/

theorem Port.within_iff {p : Port} {lo hi : Nat} : p.within lo hi = true ↔ lo ≤ p.toNat ∧ p.toNat ≤ hi := by
  simp [Port.within]

theorem portClass_dma1 {p : Port} (h : p.within 0x00 0x1F) : portClass p = .dma1 := by
  have := Port.within_iff.1 h
  simp (disch := omega) only [portClass_eq, if_pos, if_neg]

theorem portClass_pic1 {p : Port} (h : p.within 0x20 0x3F) : portClass p = .pic1 := by
  have := Port.within_iff.1 h
  simp (disch := omega) only [portClass_eq, if_pos, if_neg]

theorem portClass_pit {p : Port} (h : p.within 0x40 0x5F) : portClass p = .pit := by
  have := Port.within_iff.1 h
  simp (disch := omega) only [portClass_eq, if_pos, if_neg]

theorem portClass_rtc {p : Port} (h : p.within 0x71 0x7F) : portClass p = .rtc := by
  have := Port.within_iff.1 h
  simp (disch := omega) only [portClass_eq, if_pos, if_neg]

theorem portClass_pageSel {p : Port} (h : p.within 0x80 0x9F) (hk : p.selectsPage) : portClass p = .pageSel := by
  have := Port.within_iff.1 h
  have hk : p.toNat % 8 ∈ [1, 2, 3, 7] := by simpa [Port.selectsPage] using hk
  have hk' : p.toNat ≤ 0x9F ∧ p.toNat % 8 ∈ [1, 2, 3, 7] := ⟨this.2, hk⟩
  simp (disch := omega) only [portClass_eq, if_neg]
  rw [if_pos hk']

theorem portClass_pageGen {p : Port} (h : p.within 0x80 0x9F) (hk : p.selectsPage = false) :
    portClass p = .pageGen := by
  have := Port.within_iff.1 h
  have hk : ¬ (p.toNat ≤ 0x9F ∧ p.toNat % 8 ∈ [1, 2, 3, 7]) := by
    simp only [Port.selectsPage, decide_eq_false_iff_not] at hk
    exact fun hh => hk hh.2
  rw [portClass_eq]
  simp only [if_neg hk]
  simp (disch := omega) only [if_pos, if_neg]

theorem portClass_pic2 {p : Port} (h : p.within 0xA0 0xBF) : portClass p = .pic2 := by
  have := Port.within_iff.1 h
  simp (disch := omega) only [portClass_eq, if_pos, if_neg]

theorem portClass_dma2 {p : Port} (h : p.within 0xC0 0xDF) (he : p.toNat % 2 = 0) : portClass p = .dma2 := by
  have := Port.within_iff.1 h
  simp (disch := omega) only [portClass_eq, if_pos, if_neg]

theorem portClass_unmapped {p : Port} (h : p.unbound) : portClass p = .unmapped := by
  simp only [Port.unbound, Bool.or_eq_true, Bool.and_eq_true, Port.within_iff, decide_eq_true_eq] at h
  rcases h with (h | h) | ⟨h, ho⟩ <;> simp (disch := omega) only [portClass_eq, if_pos, if_neg]

theorem portClass_noclaim {p : Port} (h : p.within 0xE0 0xFFFF) : portClass p = .noclaim := by
  have := Port.within_iff.1 h
  simp (disch := omega) only [portClass_eq, if_pos]

/-- The ports of a class (20_memory.md R58). -/
def PortClass.holds (c : PortClass) (p : Port) : Bool :=
  match c with
  | .dma1 => p.within 0x00 0x1F
  | .pic1 => p.within 0x20 0x3F
  | .pit => p.within 0x40 0x5F
  | .kbdData => p.within 0x60 0x60
  | .portb => p.within 0x61 0x61
  | .kbdControl => p.within 0x64 0x64
  | .unmapped => p.unbound
  | .rtcSelect => p.within 0x70 0x70
  | .rtc => p.within 0x71 0x7F
  | .pageSel => p.within 0x80 0x9F && p.selectsPage
  | .pageGen => p.within 0x80 0x9F && !p.selectsPage
  | .pic2 => p.within 0xA0 0xBF
  | .dma2 => p.within 0xC0 0xDF && decide (p.toNat % 2 = 0)
  | .noclaim => p.within 0xE0 0xFFFF

theorem PortClass.holds_ite {P : Prop} [Decidable P] {a b : PortClass} {p : Port} (ha : P → a.holds p = true)
    (hb : ¬P → b.holds p = true) : (if P then a else b).holds p = true := by
  by_cases h : P
  · rw [if_pos h]; exact ha h
  · rw [if_neg h]; exact hb h

/-- A port is one of the ports of its class. -/
theorem portClass_holds (p : Port) : (portClass p).holds p = true := by
  have hp := p.isLt
  rw [portClass_eq]
  repeat' refine PortClass.holds_ite (fun _ => ?_) fun _ => ?_
  all_goals
    simp only [PortClass.holds, Port.unbound, Port.selectsPage, Bool.and_eq_true, Bool.or_eq_true, Port.within_iff,
      decide_eq_true_eq, Bool.not_eq_true', decide_eq_false_iff_not]
    first
      | omega
      | exact ⟨by omega, by tauto⟩

/-- Every operation a byte access decodes to has its operands in range (R87, R120). -/
theorem decodeRead_wf (p : Port) : (decodeRead p).wf = true := by
  have h := portClass_holds p
  unfold decodeRead
  cases hc : portClass p <;> rw [hc] at h <;> simp only [PortClass.holds] at h <;>
    simp only [Instr.wf, h] <;> simp only [Port.within_iff] at h ⊢ <;> omega

theorem decodeWrite_wf (p : Port) (d : Byte) : (decodeWrite p d).wf = true := by
  have h := portClass_holds p
  unfold decodeWrite
  cases hc : portClass p <;> rw [hc] at h <;> simp only [PortClass.holds] at h <;> simp only [Instr.wf, h]

/-! ## Operand fields -/

theorem byteField_setWidth (d : Byte) : byteField (d.setWidth 16) = .ok d := by
  have hd := d.isLt
  have : d.setWidth 16 < (0x100 : Word) := by
    rw [BitVec.lt_def]
    simp only [BitVec.toNat_setWidth, BitVec.ofNat_eq_ofNat, BitVec.toNat_ofNat]
    omega
  rw [byteField, if_pos this]
  congr 1
  apply BitVec.eq_of_toNat_eq
  simp only [BitVec.toNat_setWidth]
  omega

theorem levelField_levelWord (l : Bool) : levelField (levelWord l) = .ok l := by cases l <;> rfl

theorem indexField_ofNat (c : Fin 8) : indexField (BitVec.ofNat 16 c.val) = .ok c := by
  have h : (BitVec.ofNat 16 c.val).toNat = c.val := by
    simp only [BitVec.toNat_ofNat]
    omega
  simp [indexField, h]

theorem channelField_ofNat (c : Fin 4) : channelField (BitVec.ofNat 16 c.val) = .ok c := by
  have h : (BitVec.ofNat 16 c.val).toNat = c.val := by
    simp only [BitVec.toNat_ofNat]
    omega
  simp [channelField, h]

theorem sourceField_sourceWord (src : OnboardSource) : sourceField (sourceWord src) = .ok src := by
  cases src <;> rfl

theorem emptyField_zero : emptyField 0 = .ok () := rfl

/-! ## Formats -/

theorem decode_readFrame (p : Port) : decode (readFrame p) = .ok (decodeRead p) := rfl

theorem decode_writeFrame (p : Port) (d : Byte) : decode (writeFrame p d) = .ok (decodeWrite p d) := by
  simp only [decode, writeFrame, byteField_setWidth]
  rfl

theorem lineFormat_ok (k : Bool → Instr) (l : Bool) : lineFormat k 0 (levelWord l) = .ok (k l) := by
  cases l <;> rfl

theorem transferReadFormat_ok (k : Word → Instr) (a : Word) : transferReadFormat k a 0 = .ok (k a) := rfl

theorem transferWriteFormat_ok (k : Word → Byte → Instr) (a : Word) (d : Byte) :
    transferWriteFormat k a (d.setWidth 16) = .ok (k a d) := by
  simp only [transferWriteFormat, byteField_setWidth]
  rfl

theorem peripheralReadFormat_ok (k : Fin 4 → Instr) (c : Fin 4) :
    peripheralReadFormat k (BitVec.ofNat 16 c.val) 0 = .ok (k c) := by
  simp only [peripheralReadFormat, channelField_ofNat, emptyField_zero]
  rfl

theorem peripheralWriteFormat_ok (k : Fin 4 → Byte → Instr) (c : Fin 4) (d : Byte) :
    peripheralWriteFormat k (BitVec.ofNat 16 c.val) (d.setWidth 16) = .ok (k c d) := by
  simp only [peripheralWriteFormat, channelField_ofNat, byteField_setWidth]
  rfl

end Sys2Proof
end

