-- ==== Sys2Proof/Laws/Memory.lean ====
section
/-! SUPPORT. The laws of memory: a read after a write, and the canonical form (20_memory.md R51, R66). -/

namespace Sys2Proof.Machine

/-- Everything a read can see of a write, in any list of cells. -/
theorem Memory.read_write (m : Memory) (a x : Nat) (d : Byte) :
    (m.write a d).read x = if x = a then some d else m.read x := by
  induction m with
  | nil => rfl
  | cons c rest ih =>
    obtain ⟨b, e⟩ := c
    by_cases hab : a < b
    · simp [Memory.write, Memory.read, hab]
    · by_cases heq : a = b
      · subst heq
        by_cases hx : x = a <;> simp [Memory.write, Memory.read, hx]
      · by_cases hxb : x = b
        · simp [Memory.write, Memory.read, hab, heq, hxb, Ne.symm heq]
        · simp [Memory.write, Memory.read, hab, heq, hxb, ih]

theorem Memory.read_write_same (m : Memory) (a : Nat) (d : Byte) : (m.write a d).read a = some d := by
  simp [Memory.read_write]

theorem Memory.read_write_other (m : Memory) {a x : Nat} (d : Byte) (h : x ≠ a) :
    (m.write a d).read x = m.read x := by
  simp [Memory.read_write, h]

/-- An address listed after a write is the address written or was listed before. -/
theorem Memory.mem_write {m : Memory} {a : Nat} {d : Byte} {c : Host.Cell} (h : c ∈ m.write a d) :
    c = (a, d) ∨ c ∈ m := by
  induction m with
  | nil => simpa [Memory.write] using h
  | cons x rest ih =>
    obtain ⟨b, e⟩ := x
    simp only [Memory.write] at h
    split at h
    · simpa using h
    · split at h
      · rcases List.mem_cons.1 h with h | h
        · exact .inl h
        · exact .inr (List.mem_cons_of_mem _ h)
      · rcases List.mem_cons.1 h with h | h
        · exact .inr (h ▸ List.mem_cons_self ..)
        · exact (ih h).imp_right (List.mem_cons_of_mem _)

/-- A write keeps the addresses strictly rising. -/
theorem Memory.pairwise_write {m : Memory} (a : Nat) (d : Byte)
    (h : m.Pairwise (fun x y => x.1 < y.1)) : (m.write a d).Pairwise (fun x y => x.1 < y.1) := by
  induction m with
  | nil => simp [Memory.write]
  | cons x rest ih =>
    obtain ⟨b, e⟩ := x
    obtain ⟨hb, hrest⟩ := List.pairwise_cons.1 h
    simp only [Memory.write]
    split
    · next hab =>
      refine List.pairwise_cons.2 ⟨fun c hc => ?_, h⟩
      rcases List.mem_cons.1 hc with rfl | hc
      · exact hab
      · exact lt_trans hab (hb c hc)
    · next hab =>
      split
      · next heq => subst heq; exact List.pairwise_cons.2 ⟨hb, hrest⟩
      · next heq =>
        refine List.pairwise_cons.2 ⟨fun c hc => ?_, ih hrest⟩
        rcases Memory.mem_write hc with rfl | hc
        · exact lt_of_le_of_ne (not_lt.1 hab) (Ne.symm heq)
        · exact hb c hc

/-- A write inside the 24-bit space keeps the canonical form. -/
theorem Memory.wf_write {m : Memory} {a : Nat} (d : Byte) (ha : a < 2 ^ 24) (h : Memory.wf m) :
    Memory.wf (m.write a d) := by
  refine ⟨Memory.pairwise_write a d h.1, fun c hc => ?_⟩
  rcases Memory.mem_write hc with rfl | hc
  · exact ha
  · exact h.2 c hc

theorem State.byteAt_storeByte (s : State) (a x : PhysAddr) (d : Byte) :
    (s.storeByte a d).byteAt x = if x = a then some d else s.byteAt x := by
  simp [State.byteAt, State.storeByte, Memory.read_write, BitVec.toNat_inj]

theorem State.byteAt_storeWord (s : State) (a x : PhysAddr) (w : Word) :
    (s.storeWord a w).byteAt x =
      if x = a + 1 then some (highByte w) else if x = a then some (lowByte w) else s.byteAt x := by
  simp [State.storeWord, State.byteAt_storeByte]

theorem State.storeByte_mem_wf {s : State} (a : PhysAddr) (d : Byte) (h : Memory.wf s.mem) :
    Memory.wf (s.storeByte a d).mem :=
  Memory.wf_write d a.isLt h

theorem State.storeWord_mem_wf {s : State} (a : PhysAddr) (w : Word) (h : Memory.wf s.mem) :
    Memory.wf (s.storeWord a w).mem :=
  State.storeByte_mem_wf _ _ (State.storeByte_mem_wf _ _ h)

/-- The memory at reset is in canonical form. -/
theorem State.reset_mem_wf : Memory.wf State.reset.mem := by
  simp [State.reset, Memory.wf]

end Sys2Proof.Machine
end

