-- ==== Sys2Proof/Laws/State.lean ====
section
/-! SUPPORT. One lemma per field per update of the state, so that no later proof unfolds a record update. -/

namespace Sys2Proof.Machine

/-! ## emit -/

@[simp] theorem State.emit_page8 (a : Action) (s : State) : (s.emit a).page8 = s.page8 := rfl
@[simp] theorem State.emit_page16 (a : Action) (s : State) : (s.emit a).page16 = s.page16 := rfl
@[simp] theorem State.emit_gen (a : Action) (s : State) : (s.emit a).gen = s.gen := rfl
@[simp] theorem State.emit_hiLatch (a : Action) (s : State) : (s.emit a).hiLatch = s.hiLatch := rfl
@[simp] theorem State.emit_owner (a : Action) (s : State) : (s.emit a).owner = s.owner := rfl
@[simp] theorem State.emit_eop1 (a : Action) (s : State) : (s.emit a).eop1 = s.eop1 := rfl
@[simp] theorem State.emit_eop2 (a : Action) (s : State) : (s.emit a).eop2 = s.eop2 := rfl
@[simp] theorem State.emit_nmiEnabled (a : Action) (s : State) : (s.emit a).nmiEnabled = s.nmiEnabled := rfl
@[simp] theorem State.emit_channelCheck (a : Action) (s : State) : (s.emit a).channelCheck = s.channelCheck := rfl
@[simp] theorem State.emit_portb (a : Action) (s : State) : (s.emit a).portb = s.portb := rfl
@[simp] theorem State.emit_spkrData (a : Action) (s : State) : (s.emit a).spkrData = s.spkrData := rfl
@[simp] theorem State.emit_pitOut2 (a : Action) (s : State) : (s.emit a).pitOut2 = s.pitOut2 := rfl
@[simp] theorem State.emit_mem (a : Action) (s : State) : (s.emit a).mem = s.mem := rfl
@[simp] theorem State.emit_board (a : Action) (s : State) : (s.emit a).board = s.board := rfl
@[simp] theorem State.emit_a20Registered (a : Action) (s : State) : (s.emit a).a20Registered = s.a20Registered := rfl
@[simp] theorem State.emit_stopped (a : Action) (s : State) : (s.emit a).stopped = s.stopped := rfl
@[simp] theorem State.emit_half (a : Action) (s : State) : (s.emit a).half = s.half := rfl
@[simp] theorem State.emit_inputs (a : Action) (s : State) : (s.emit a).inputs = s.inputs := rfl
@[simp] theorem State.emit_answers (a : Action) (s : State) : (s.emit a).answers = s.answers := rfl
@[simp] theorem State.emit_platformReads (a : Action) (s : State) : (s.emit a).platformReads = s.platformReads := rfl
@[simp] theorem State.emit_draws (a : Action) (s : State) : (s.emit a).draws = s.draws := rfl
@[simp] theorem State.emit_actions (a : Action) (s : State) : (s.emit a).actions = s.actions ++ [a] := rfl
@[simp] theorem State.emit_ret (a : Action) (s : State) : (s.emit a).ret = s.ret := rfl
@[simp] theorem State.emit_block (a : Action) (s : State) : (s.emit a).block = s.block := rfl

/-! ## consume -/

@[simp] theorem State.consume_page8 (s : State) : s.consume.page8 = s.page8 := rfl
@[simp] theorem State.consume_page16 (s : State) : s.consume.page16 = s.page16 := rfl
@[simp] theorem State.consume_gen (s : State) : s.consume.gen = s.gen := rfl
@[simp] theorem State.consume_hiLatch (s : State) : s.consume.hiLatch = s.hiLatch := rfl
@[simp] theorem State.consume_owner (s : State) : s.consume.owner = s.owner := rfl
@[simp] theorem State.consume_eop1 (s : State) : s.consume.eop1 = s.eop1 := rfl
@[simp] theorem State.consume_eop2 (s : State) : s.consume.eop2 = s.eop2 := rfl
@[simp] theorem State.consume_nmiEnabled (s : State) : s.consume.nmiEnabled = s.nmiEnabled := rfl
@[simp] theorem State.consume_channelCheck (s : State) : s.consume.channelCheck = s.channelCheck := rfl
@[simp] theorem State.consume_portb (s : State) : s.consume.portb = s.portb := rfl
@[simp] theorem State.consume_spkrData (s : State) : s.consume.spkrData = s.spkrData := rfl
@[simp] theorem State.consume_pitOut2 (s : State) : s.consume.pitOut2 = s.pitOut2 := rfl
@[simp] theorem State.consume_mem (s : State) : s.consume.mem = s.mem := rfl
@[simp] theorem State.consume_board (s : State) : s.consume.board = s.board := rfl
@[simp] theorem State.consume_a20Registered (s : State) : s.consume.a20Registered = s.a20Registered := rfl
@[simp] theorem State.consume_stopped (s : State) : s.consume.stopped = s.stopped := rfl
@[simp] theorem State.consume_half (s : State) : s.consume.half = s.half := rfl
@[simp] theorem State.consume_inputs (s : State) : s.consume.inputs = s.inputs := rfl
@[simp] theorem State.consume_answers (s : State) : s.consume.answers = s.answers.tail := rfl
@[simp] theorem State.consume_platformReads (s : State) : s.consume.platformReads = s.platformReads := rfl
@[simp] theorem State.consume_draws (s : State) : s.consume.draws = if s.answers.isEmpty then s.draws + 1 else s.draws := rfl
@[simp] theorem State.consume_actions (s : State) : s.consume.actions = s.actions := rfl
@[simp] theorem State.consume_ret (s : State) : s.consume.ret = s.ret := rfl
@[simp] theorem State.consume_block (s : State) : s.consume.block = s.block := rfl

/-! ## consumePlatform -/

@[simp] theorem State.consumePlatform_page8 (s : State) : s.consumePlatform.page8 = s.page8 := rfl
@[simp] theorem State.consumePlatform_page16 (s : State) : s.consumePlatform.page16 = s.page16 := rfl
@[simp] theorem State.consumePlatform_gen (s : State) : s.consumePlatform.gen = s.gen := rfl
@[simp] theorem State.consumePlatform_hiLatch (s : State) : s.consumePlatform.hiLatch = s.hiLatch := rfl
@[simp] theorem State.consumePlatform_owner (s : State) : s.consumePlatform.owner = s.owner := rfl
@[simp] theorem State.consumePlatform_eop1 (s : State) : s.consumePlatform.eop1 = s.eop1 := rfl
@[simp] theorem State.consumePlatform_eop2 (s : State) : s.consumePlatform.eop2 = s.eop2 := rfl
@[simp] theorem State.consumePlatform_nmiEnabled (s : State) : s.consumePlatform.nmiEnabled = s.nmiEnabled := rfl
@[simp] theorem State.consumePlatform_channelCheck (s : State) : s.consumePlatform.channelCheck = s.channelCheck := rfl
@[simp] theorem State.consumePlatform_portb (s : State) : s.consumePlatform.portb = s.portb := rfl
@[simp] theorem State.consumePlatform_spkrData (s : State) : s.consumePlatform.spkrData = s.spkrData := rfl
@[simp] theorem State.consumePlatform_pitOut2 (s : State) : s.consumePlatform.pitOut2 = s.pitOut2 := rfl
@[simp] theorem State.consumePlatform_mem (s : State) : s.consumePlatform.mem = s.mem := rfl
@[simp] theorem State.consumePlatform_board (s : State) : s.consumePlatform.board = s.board := rfl
@[simp] theorem State.consumePlatform_a20Registered (s : State) : s.consumePlatform.a20Registered = s.a20Registered := rfl
@[simp] theorem State.consumePlatform_stopped (s : State) : s.consumePlatform.stopped = s.stopped := rfl
@[simp] theorem State.consumePlatform_half (s : State) : s.consumePlatform.half = s.half := rfl
@[simp] theorem State.consumePlatform_inputs (s : State) : s.consumePlatform.inputs = s.inputs := rfl
@[simp] theorem State.consumePlatform_answers (s : State) : s.consumePlatform.answers = s.answers := rfl
@[simp] theorem State.consumePlatform_platformReads (s : State) : s.consumePlatform.platformReads = s.platformReads.tail := rfl
@[simp] theorem State.consumePlatform_draws (s : State) :
    s.consumePlatform.draws = if s.platformReads.isEmpty then s.draws + 1 else s.draws := rfl
@[simp] theorem State.consumePlatform_actions (s : State) : s.consumePlatform.actions = s.actions := rfl
@[simp] theorem State.consumePlatform_ret (s : State) : s.consumePlatform.ret = s.ret := rfl
@[simp] theorem State.consumePlatform_block (s : State) : s.consumePlatform.block = s.block := rfl

/-! ## giveRet -/

@[simp] theorem State.giveRet_page8 (r : Ret) (s : State) : (s.giveRet r).page8 = s.page8 := rfl
@[simp] theorem State.giveRet_page16 (r : Ret) (s : State) : (s.giveRet r).page16 = s.page16 := rfl
@[simp] theorem State.giveRet_gen (r : Ret) (s : State) : (s.giveRet r).gen = s.gen := rfl
@[simp] theorem State.giveRet_hiLatch (r : Ret) (s : State) : (s.giveRet r).hiLatch = s.hiLatch := rfl
@[simp] theorem State.giveRet_owner (r : Ret) (s : State) : (s.giveRet r).owner = s.owner := rfl
@[simp] theorem State.giveRet_eop1 (r : Ret) (s : State) : (s.giveRet r).eop1 = s.eop1 := rfl
@[simp] theorem State.giveRet_eop2 (r : Ret) (s : State) : (s.giveRet r).eop2 = s.eop2 := rfl
@[simp] theorem State.giveRet_nmiEnabled (r : Ret) (s : State) : (s.giveRet r).nmiEnabled = s.nmiEnabled := rfl
@[simp] theorem State.giveRet_channelCheck (r : Ret) (s : State) : (s.giveRet r).channelCheck = s.channelCheck := rfl
@[simp] theorem State.giveRet_portb (r : Ret) (s : State) : (s.giveRet r).portb = s.portb := rfl
@[simp] theorem State.giveRet_spkrData (r : Ret) (s : State) : (s.giveRet r).spkrData = s.spkrData := rfl
@[simp] theorem State.giveRet_pitOut2 (r : Ret) (s : State) : (s.giveRet r).pitOut2 = s.pitOut2 := rfl
@[simp] theorem State.giveRet_mem (r : Ret) (s : State) : (s.giveRet r).mem = s.mem := rfl
@[simp] theorem State.giveRet_board (r : Ret) (s : State) : (s.giveRet r).board = s.board := rfl
@[simp] theorem State.giveRet_a20Registered (r : Ret) (s : State) : (s.giveRet r).a20Registered = s.a20Registered := rfl
@[simp] theorem State.giveRet_stopped (r : Ret) (s : State) : (s.giveRet r).stopped = s.stopped := rfl
@[simp] theorem State.giveRet_half (r : Ret) (s : State) : (s.giveRet r).half = s.half := rfl
@[simp] theorem State.giveRet_inputs (r : Ret) (s : State) : (s.giveRet r).inputs = s.inputs := rfl
@[simp] theorem State.giveRet_answers (r : Ret) (s : State) : (s.giveRet r).answers = s.answers := rfl
@[simp] theorem State.giveRet_platformReads (r : Ret) (s : State) : (s.giveRet r).platformReads = s.platformReads := rfl
@[simp] theorem State.giveRet_draws (r : Ret) (s : State) : (s.giveRet r).draws = s.draws := rfl
@[simp] theorem State.giveRet_actions (r : Ret) (s : State) : (s.giveRet r).actions = s.actions := rfl
@[simp] theorem State.giveRet_ret (r : Ret) (s : State) : (s.giveRet r).ret = r := rfl
@[simp] theorem State.giveRet_block (r : Ret) (s : State) : (s.giveRet r).block = s.block := rfl

/-! ## storeByte -/

@[simp] theorem State.storeByte_page8 (a : PhysAddr) (d : Byte) (s : State) : (s.storeByte a d).page8 = s.page8 := rfl
@[simp] theorem State.storeByte_page16 (a : PhysAddr) (d : Byte) (s : State) : (s.storeByte a d).page16 = s.page16 := rfl
@[simp] theorem State.storeByte_gen (a : PhysAddr) (d : Byte) (s : State) : (s.storeByte a d).gen = s.gen := rfl
@[simp] theorem State.storeByte_hiLatch (a : PhysAddr) (d : Byte) (s : State) : (s.storeByte a d).hiLatch = s.hiLatch := rfl
@[simp] theorem State.storeByte_owner (a : PhysAddr) (d : Byte) (s : State) : (s.storeByte a d).owner = s.owner := rfl
@[simp] theorem State.storeByte_eop1 (a : PhysAddr) (d : Byte) (s : State) : (s.storeByte a d).eop1 = s.eop1 := rfl
@[simp] theorem State.storeByte_eop2 (a : PhysAddr) (d : Byte) (s : State) : (s.storeByte a d).eop2 = s.eop2 := rfl
@[simp] theorem State.storeByte_nmiEnabled (a : PhysAddr) (d : Byte) (s : State) : (s.storeByte a d).nmiEnabled = s.nmiEnabled := rfl
@[simp] theorem State.storeByte_channelCheck (a : PhysAddr) (d : Byte) (s : State) : (s.storeByte a d).channelCheck = s.channelCheck := rfl
@[simp] theorem State.storeByte_portb (a : PhysAddr) (d : Byte) (s : State) : (s.storeByte a d).portb = s.portb := rfl
@[simp] theorem State.storeByte_spkrData (a : PhysAddr) (d : Byte) (s : State) : (s.storeByte a d).spkrData = s.spkrData := rfl
@[simp] theorem State.storeByte_pitOut2 (a : PhysAddr) (d : Byte) (s : State) : (s.storeByte a d).pitOut2 = s.pitOut2 := rfl
@[simp] theorem State.storeByte_mem (a : PhysAddr) (d : Byte) (s : State) : (s.storeByte a d).mem = s.mem.write a.toNat d := rfl
@[simp] theorem State.storeByte_board (a : PhysAddr) (d : Byte) (s : State) : (s.storeByte a d).board = s.board := rfl
@[simp] theorem State.storeByte_a20Registered (a : PhysAddr) (d : Byte) (s : State) : (s.storeByte a d).a20Registered = s.a20Registered := rfl
@[simp] theorem State.storeByte_stopped (a : PhysAddr) (d : Byte) (s : State) : (s.storeByte a d).stopped = s.stopped := rfl
@[simp] theorem State.storeByte_half (a : PhysAddr) (d : Byte) (s : State) : (s.storeByte a d).half = s.half := rfl
@[simp] theorem State.storeByte_inputs (a : PhysAddr) (d : Byte) (s : State) : (s.storeByte a d).inputs = s.inputs := rfl
@[simp] theorem State.storeByte_answers (a : PhysAddr) (d : Byte) (s : State) : (s.storeByte a d).answers = s.answers := rfl
@[simp] theorem State.storeByte_platformReads (a : PhysAddr) (d : Byte) (s : State) : (s.storeByte a d).platformReads = s.platformReads := rfl
@[simp] theorem State.storeByte_draws (a : PhysAddr) (d : Byte) (s : State) : (s.storeByte a d).draws = s.draws := rfl
@[simp] theorem State.storeByte_actions (a : PhysAddr) (d : Byte) (s : State) : (s.storeByte a d).actions = s.actions := rfl
@[simp] theorem State.storeByte_ret (a : PhysAddr) (d : Byte) (s : State) : (s.storeByte a d).ret = s.ret := rfl
@[simp] theorem State.storeByte_block (a : PhysAddr) (d : Byte) (s : State) : (s.storeByte a d).block = s.block := rfl

/-! ## beginStep -/

@[simp] theorem State.beginStep_page8 (rest : List Input) (s : State) : (s.beginStep rest).page8 = s.page8 := rfl
@[simp] theorem State.beginStep_page16 (rest : List Input) (s : State) : (s.beginStep rest).page16 = s.page16 := rfl
@[simp] theorem State.beginStep_gen (rest : List Input) (s : State) : (s.beginStep rest).gen = s.gen := rfl
@[simp] theorem State.beginStep_hiLatch (rest : List Input) (s : State) : (s.beginStep rest).hiLatch = s.hiLatch := rfl
@[simp] theorem State.beginStep_owner (rest : List Input) (s : State) : (s.beginStep rest).owner = s.owner := rfl
@[simp] theorem State.beginStep_eop1 (rest : List Input) (s : State) : (s.beginStep rest).eop1 = s.eop1 := rfl
@[simp] theorem State.beginStep_eop2 (rest : List Input) (s : State) : (s.beginStep rest).eop2 = s.eop2 := rfl
@[simp] theorem State.beginStep_nmiEnabled (rest : List Input) (s : State) : (s.beginStep rest).nmiEnabled = s.nmiEnabled := rfl
@[simp] theorem State.beginStep_channelCheck (rest : List Input) (s : State) : (s.beginStep rest).channelCheck = s.channelCheck := rfl
@[simp] theorem State.beginStep_portb (rest : List Input) (s : State) : (s.beginStep rest).portb = s.portb := rfl
@[simp] theorem State.beginStep_spkrData (rest : List Input) (s : State) : (s.beginStep rest).spkrData = s.spkrData := rfl
@[simp] theorem State.beginStep_pitOut2 (rest : List Input) (s : State) : (s.beginStep rest).pitOut2 = s.pitOut2 := rfl
@[simp] theorem State.beginStep_mem (rest : List Input) (s : State) : (s.beginStep rest).mem = s.mem := rfl
@[simp] theorem State.beginStep_board (rest : List Input) (s : State) : (s.beginStep rest).board = s.board := rfl
@[simp] theorem State.beginStep_a20Registered (rest : List Input) (s : State) : (s.beginStep rest).a20Registered = s.a20Registered := rfl
@[simp] theorem State.beginStep_stopped (rest : List Input) (s : State) : (s.beginStep rest).stopped = s.stopped := rfl
@[simp] theorem State.beginStep_half (rest : List Input) (s : State) : (s.beginStep rest).half = s.half := rfl
@[simp] theorem State.beginStep_inputs (rest : List Input) (s : State) : (s.beginStep rest).inputs = rest := rfl
@[simp] theorem State.beginStep_answers (rest : List Input) (s : State) : (s.beginStep rest).answers = s.answers := rfl
@[simp] theorem State.beginStep_platformReads (rest : List Input) (s : State) : (s.beginStep rest).platformReads = s.platformReads := rfl
@[simp] theorem State.beginStep_draws (rest : List Input) (s : State) : (s.beginStep rest).draws = s.draws := rfl
@[simp] theorem State.beginStep_actions (rest : List Input) (s : State) : (s.beginStep rest).actions = [] := rfl
@[simp] theorem State.beginStep_ret (rest : List Input) (s : State) : (s.beginStep rest).ret = .none := rfl
@[simp] theorem State.beginStep_block (rest : List Input) (s : State) : (s.beginStep rest).block = s.block := rfl

/-! ## present -/

@[simp] theorem State.present_page8 (f : Frame) (s : State) : (s.present f).page8 = s.page8 := rfl
@[simp] theorem State.present_page16 (f : Frame) (s : State) : (s.present f).page16 = s.page16 := rfl
@[simp] theorem State.present_gen (f : Frame) (s : State) : (s.present f).gen = s.gen := rfl
@[simp] theorem State.present_hiLatch (f : Frame) (s : State) : (s.present f).hiLatch = s.hiLatch := rfl
@[simp] theorem State.present_owner (f : Frame) (s : State) : (s.present f).owner = s.owner := rfl
@[simp] theorem State.present_eop1 (f : Frame) (s : State) : (s.present f).eop1 = s.eop1 := rfl
@[simp] theorem State.present_eop2 (f : Frame) (s : State) : (s.present f).eop2 = s.eop2 := rfl
@[simp] theorem State.present_nmiEnabled (f : Frame) (s : State) : (s.present f).nmiEnabled = s.nmiEnabled := rfl
@[simp] theorem State.present_channelCheck (f : Frame) (s : State) : (s.present f).channelCheck = s.channelCheck := rfl
@[simp] theorem State.present_portb (f : Frame) (s : State) : (s.present f).portb = s.portb := rfl
@[simp] theorem State.present_spkrData (f : Frame) (s : State) : (s.present f).spkrData = s.spkrData := rfl
@[simp] theorem State.present_pitOut2 (f : Frame) (s : State) : (s.present f).pitOut2 = s.pitOut2 := rfl
@[simp] theorem State.present_mem (f : Frame) (s : State) : (s.present f).mem = s.mem := rfl
@[simp] theorem State.present_board (f : Frame) (s : State) : (s.present f).board = s.board := rfl
@[simp] theorem State.present_a20Registered (f : Frame) (s : State) : (s.present f).a20Registered = s.a20Registered := rfl
@[simp] theorem State.present_stopped (f : Frame) (s : State) : (s.present f).stopped = s.stopped := rfl
@[simp] theorem State.present_half (f : Frame) (s : State) : (s.present f).half = s.half := rfl
@[simp] theorem State.present_inputs (f : Frame) (s : State) : (s.present f).inputs = .op f :: s.inputs := rfl
@[simp] theorem State.present_answers (f : Frame) (s : State) : (s.present f).answers = s.answers := rfl
@[simp] theorem State.present_platformReads (f : Frame) (s : State) : (s.present f).platformReads = s.platformReads := rfl
@[simp] theorem State.present_draws (f : Frame) (s : State) : (s.present f).draws = s.draws := rfl
@[simp] theorem State.present_actions (f : Frame) (s : State) : (s.present f).actions = s.actions := rfl
@[simp] theorem State.present_ret (f : Frame) (s : State) : (s.present f).ret = s.ret := rfl
@[simp] theorem State.present_block (f : Frame) (s : State) : (s.present f).block = s.block := rfl

/-! ## withActions -/

@[simp] theorem State.withActions_page8 (acts : List Action) (s : State) : (s.withActions acts).page8 = s.page8 := rfl
@[simp] theorem State.withActions_page16 (acts : List Action) (s : State) : (s.withActions acts).page16 = s.page16 := rfl
@[simp] theorem State.withActions_gen (acts : List Action) (s : State) : (s.withActions acts).gen = s.gen := rfl
@[simp] theorem State.withActions_hiLatch (acts : List Action) (s : State) : (s.withActions acts).hiLatch = s.hiLatch := rfl
@[simp] theorem State.withActions_owner (acts : List Action) (s : State) : (s.withActions acts).owner = s.owner := rfl
@[simp] theorem State.withActions_eop1 (acts : List Action) (s : State) : (s.withActions acts).eop1 = s.eop1 := rfl
@[simp] theorem State.withActions_eop2 (acts : List Action) (s : State) : (s.withActions acts).eop2 = s.eop2 := rfl
@[simp] theorem State.withActions_nmiEnabled (acts : List Action) (s : State) : (s.withActions acts).nmiEnabled = s.nmiEnabled := rfl
@[simp] theorem State.withActions_channelCheck (acts : List Action) (s : State) : (s.withActions acts).channelCheck = s.channelCheck := rfl
@[simp] theorem State.withActions_portb (acts : List Action) (s : State) : (s.withActions acts).portb = s.portb := rfl
@[simp] theorem State.withActions_spkrData (acts : List Action) (s : State) : (s.withActions acts).spkrData = s.spkrData := rfl
@[simp] theorem State.withActions_pitOut2 (acts : List Action) (s : State) : (s.withActions acts).pitOut2 = s.pitOut2 := rfl
@[simp] theorem State.withActions_mem (acts : List Action) (s : State) : (s.withActions acts).mem = s.mem := rfl
@[simp] theorem State.withActions_board (acts : List Action) (s : State) : (s.withActions acts).board = s.board := rfl
@[simp] theorem State.withActions_a20Registered (acts : List Action) (s : State) : (s.withActions acts).a20Registered = s.a20Registered := rfl
@[simp] theorem State.withActions_stopped (acts : List Action) (s : State) : (s.withActions acts).stopped = s.stopped := rfl
@[simp] theorem State.withActions_half (acts : List Action) (s : State) : (s.withActions acts).half = s.half := rfl
@[simp] theorem State.withActions_inputs (acts : List Action) (s : State) : (s.withActions acts).inputs = s.inputs := rfl
@[simp] theorem State.withActions_answers (acts : List Action) (s : State) : (s.withActions acts).answers = s.answers := rfl
@[simp] theorem State.withActions_platformReads (acts : List Action) (s : State) : (s.withActions acts).platformReads = s.platformReads := rfl
@[simp] theorem State.withActions_draws (acts : List Action) (s : State) : (s.withActions acts).draws = s.draws := rfl
@[simp] theorem State.withActions_actions (acts : List Action) (s : State) : (s.withActions acts).actions = s.actions ++ acts := rfl
@[simp] theorem State.withActions_ret (acts : List Action) (s : State) : (s.withActions acts).ret = s.ret := rfl
@[simp] theorem State.withActions_block (acts : List Action) (s : State) : (s.withActions acts).block = s.block := rfl

end Sys2Proof.Machine
end

