-- ==== Sys2Proof/Laws/Ops.lean ====
section
/-! SUPPORT. For each shared operation, once, everything it can do. -/

namespace Sys2Proof.Machine

/-! ## Queries (00_scope.md R8) -/

theorem State.answer_of_cons {s : State} {w : Word} {ws : List Word} (h : s.answers = w :: ws) : s.answer = w := by
  simp [State.answer, h]

theorem State.answer_of_nil {s : State} (h : s.answers = []) : s.answer = Config.freeAnswer s.draws := by
  simp [State.answer, h]

@[simp] theorem State.answer_emit (a : Action) (s : State) : (s.emit a).answer = s.answer := rfl

@[simp] theorem State.answer_giveRet (r : Ret) (s : State) : (s.giveRet r).answer = s.answer := rfl

/-- A byte query that is returned: the action, one answer taken, its low byte returned, nothing else. -/
theorem State.giveByte_askByte (a : Action) (s : State) : State.giveByte (s.askByte a) = s.byteQueried a := rfl

@[simp] theorem State.byteQueried_block (a : Action) (s : State) : (s.byteQueried a).block = s.block := rfl

@[simp] theorem State.byteQueried_byteAt (a : Action) (s : State) (x : PhysAddr) :
    (s.byteQueried a).byteAt x = s.byteAt x := rfl

/-! ## Reads of ports the block does not decode (40_port_decoder.md R116) -/

theorem State.platformAnswer_of_cons {s : State} {r : Option Byte} {rs : List (Option Byte)}
    (h : s.platformReads = r :: rs) : s.platformAnswer = r := by
  simp [State.platformAnswer, h]

theorem State.platformAnswer_of_nil {s : State} (h : s.platformReads = []) :
    s.platformAnswer = Config.freePlatformRead s.draws := by
  simp [State.platformAnswer, h]

/-- Everything such a read does: one platform answer is taken, its byte given, 0xFF where no device answers. -/
theorem State.giveByte_platformByte (s : State) :
    State.giveByte s.platformByte =
      { s with
        platformReads := s.platformReads.tail
        draws := if s.platformReads.isEmpty then s.draws + 1 else s.draws
        ret := .u8 (s.platformAnswer.getD 0xFF) } := rfl

/-! ## Memory reads and writes (20_memory.md R53, R66) -/

theorem State.memRead8_snd (a : PhysAddr) (s : State) : (s.memRead8 a).2 = (s.emit (.memRead8 a)).consume := rfl

theorem State.memRead16_snd (a : PhysAddr) (s : State) : (s.memRead16 a).2 = (s.emit (.memRead16 a)).consume := rfl

/-- A written byte answers for itself. -/
theorem State.memRead8_written {s : State} {a : PhysAddr} {d : Byte} (h : s.byteAt a = some d) : (s.memRead8 a).1 = d := by
  simp [State.memRead8, h]

/-- A byte nothing has written is the environment's answer. -/
theorem State.memRead8_unwritten {s : State} {a : PhysAddr} (h : s.byteAt a = none) :
    (s.memRead8 a).1 = lowByte s.answer := by
  simp [State.memRead8, h]

theorem State.memRead16_written {s : State} {a : PhysAddr} {lo hi : Byte} (hl : s.byteAt a = some lo)
    (hh : s.byteAt (a + 1) = some hi) : (s.memRead16 a).1 = joinBytes hi lo := by
  simp only [State.memRead16, hl, hh, Option.getD_some]

@[simp] theorem lowByte_joinBytes (hi lo : Byte) : lowByte (joinBytes hi lo) = lo := by
  have h2 := lo.isLt
  apply BitVec.eq_of_toNat_eq
  simp only [lowByte, joinBytes, BitVec.toNat_setWidth, BitVec.toNat_append, Nat.shiftLeft_eq]
  rw [Nat.mul_comm, ← Nat.two_pow_add_eq_or_of_lt h2]
  omega

@[simp] theorem highByte_joinBytes (hi lo : Byte) : highByte (joinBytes hi lo) = hi := by
  have h1 := hi.isLt
  have h2 := lo.isLt
  apply BitVec.eq_of_toNat_eq
  simp only [highByte, joinBytes, BitVec.toNat_setWidth, BitVec.toNat_ushiftRight, BitVec.toNat_append,
    Nat.shiftLeft_eq, Nat.shiftRight_eq_div_pow]
  rw [Nat.mul_comm, ← Nat.two_pow_add_eq_or_of_lt h2]
  omega

@[simp] theorem joinBytes_highByte_lowByte (w : Word) : joinBytes (highByte w) (lowByte w) = w := by
  have h := w.isLt
  apply BitVec.eq_of_toNat_eq
  simp only [highByte, lowByte, joinBytes, BitVec.toNat_setWidth, BitVec.toNat_ushiftRight, BitVec.toNat_append,
    Nat.shiftLeft_eq, Nat.shiftRight_eq_div_pow]
  rw [Nat.mul_comm, ← Nat.two_pow_add_eq_or_of_lt (by omega)]
  omega

/-- The next address is another one: a word's two bytes lie at two addresses. -/
theorem PhysAddr.succ_ne (a : PhysAddr) : a + 1 ≠ a := by
  intro h
  have := congrArg BitVec.toNat h
  simp only [BitVec.toNat_add, BitVec.ofNat_eq_ofNat, BitVec.toNat_ofNat] at this
  omega

/-- A word just stored reads back as that word. -/
theorem State.memRead16_storeWord (s : State) (a : PhysAddr) (w : Word) : ((s.storeWord a w).memRead16 a).1 = w := by
  rw [State.memRead16_written (lo := lowByte w) (hi := highByte w)]
  · exact joinBytes_highByte_lowByte w
  · rw [State.byteAt_storeWord, if_neg (PhysAddr.succ_ne a).symm, if_pos rfl]
  · rw [State.byteAt_storeWord, if_pos rfl]

/-! ## Page cells (41_dma_page_xlat.md R139) -/

/-- The table `PAGE_SEL` reaches four different registers. -/
theorem pageSel_injective {k k' : BitVec 3} {i : Fin 4} (h : pageSel k = some i) (h' : pageSel k' = some i) : k = k' := by
  revert k k' i
  decide

theorem State.readCell_writeCell_same (s : State) (c : PageCell) (d : Byte) : (s.writeCell c d).readCell c = d := by
  cases c <;> simp [State.readCell, State.writeCell, Vector.get_eq_getElem]

theorem State.readCell_writeCell_other (s : State) {c c' : PageCell} (d : Byte) (h : c' ≠ c) :
    (s.writeCell c d).readCell c' = s.readCell c' := by
  cases c <;> cases c' <;>
    simp_all [State.readCell, State.writeCell, Vector.get_eq_getElem, Vector.getElem_set, Fin.ext_iff]
  all_goals
    intro h'
    exact absurd h'.symm h

/-! ## Forwarding -/

/-- Forwarding the NMI state only adds one action. -/
theorem State.forwardNmi_eq (s : State) : s.forwardNmi = s.withActions [.busNmiState s.nmiState] := rfl

/-- Forwarding the speaker level only adds one action. -/
theorem State.forwardSpeaker_eq (s : State) : s.forwardSpeaker = s.withActions [.spkLevel s.speakerLevel] := rfl

theorem State.withActions_nil (s : State) : s.withActions [] = s := by
  simp [State.withActions]

theorem State.forwardEopIf_eq (flag : Bool) (c : Fin 8) (level : Bool) (s : State) :
    s.forwardEopIf flag c level = s.withActions (if flag then [.busEop c level] else []) := by
  cases flag
  · simp [State.forwardEopIf, State.withActions]
  · rfl

theorem State.forwardEopToOwner_idle {s : State} (level : Bool) (h : s.owner = .idle) : s.forwardEopToOwner level = s := by
  simp [State.forwardEopToOwner, h]

theorem State.forwardEopToOwner_owned {s : State} {c : Fin 8} (level : Bool) (h : s.owner = .owned c) :
    s.forwardEopToOwner level = s.withActions [.busEop c level] := by
  simp [State.forwardEopToOwner, h, State.emit, State.withActions]

/-! ## Ownership (42_dma_arbiter.md R161) -/

/-- A grant: the owner, and the end-of-process level if the flag of the channel's controller is 1. -/
theorem State.grant_eq (c : Fin 8) (s : State) :
    s.grant c = ({ s with owner := .owned c }).withActions (if s.eopFlag c then [.busEop c true] else []) :=
  State.forwardEopIf_eq _ _ _ _

/-- A release by the owner. -/
theorem State.release_owner {c : Fin 8} {s : State} (h : s.owner = .owned c) :
    s.release c = ({ s with owner := .idle }).withActions (if s.eopFlag c then [.busEop c false] else []) := by
  rw [State.release, if_pos h]
  exact State.forwardEopIf_eq _ _ _ _

/-- A release by anyone else is a no-op. -/
theorem State.release_other {c : Fin 8} {s : State} (h : s.owner ≠ .owned c) : s.release c = s := by
  rw [State.release, if_neg h]

end Sys2Proof.Machine
end

