-- ==== Sys2Proof/Laws/Exec.lean ====
section
/-! SUPPORT. Lemmas about the meanings: the byte port accesses behind a word access, what a step can do, and the
writes of ports 0x61 and 0x70. -/

namespace Sys2Proof.Machine

/-- A byte read of any port: the byte `portIn` gives, returned. -/
theorem exec_decodeRead (p : Port) (s : State) : exec (decodeRead p) s = .next (State.giveByte (portIn p s)) := by
  unfold decodeRead portIn
  cases portClass p <;> rfl

/-- A byte write of any port. -/
theorem exec_decodeWrite (p : Port) (d : Byte) (s : State) : exec (decodeWrite p d) s = .next (portOut p d s) := by
  unfold decodeWrite portOut
  cases portClass p <;> rfl

/-- What a byte read can do: nothing, or take one answer of the platform, or record one query and take its answer. -/
theorem portIn_snd (p : Port) (s : State) :
    (portIn p s).2 = s ∨ (portIn p s).2 = s.consumePlatform ∨ ∃ a, (portIn p s).2 = (s.emit a).consume := by
  unfold portIn
  cases portClass p
  all_goals
    first
      | exact .inl rfl
      | exact .inr (.inl rfl)
      | exact .inr (.inr ⟨_, rfl⟩)

@[simp] theorem portIn_callBackNext (p : Port) (s : State) : (portIn p s).2.callBackNext = s.callBackNext := by
  rcases portIn_snd p s with h | h | ⟨a, h⟩ <;> rw [h] <;> rfl

@[simp] theorem portOut_callBackNext (p : Port) (d : Byte) (s : State) :
    (portOut p d s).callBackNext = s.callBackNext := by
  unfold portOut
  cases portClass p
  case pageSel => simp only [iowPageSel]; cases pageCell p <;> rfl
  case pageGen => simp only [iowPageGen]; cases pageCell p <;> rfl
  all_goals rfl

/-- A word access with a call-back next in line stops between its halves (20_memory.md R56). -/
theorem State.afterFirstHalf_callBack {s : State} (h : WordHalf) (hs : s.callBackNext = true) :
    s.afterFirstHalf h = { s with half := some h } := if_pos hs

/-- With none, the second half follows at once. -/
theorem State.afterFirstHalf_none {s : State} (h : WordHalf) (hs : s.callBackNext = false) :
    s.afterFirstHalf h = s.secondHalf h := if_neg (by simp [hs])

/-- Everything that can follow the first half. -/
theorem State.afterFirstHalf_cases (h : WordHalf) (s : State) :
    s.afterFirstHalf h = { s with half := some h } ∨ s.afterFirstHalf h = s.secondHalf h := by
  unfold State.afterFirstHalf
  split
  exacts [.inl rfl, .inr rfl]

/-- A second half that is due is the step. -/
theorem step_of_half {s : State} {h : WordHalf} (hs : s.stopped = false) (hh : s.half = some h)
    (hc : s.callBackNext = false) : step s = .next (s.resumeWord h) := by
  simp [step, State.advance, hs, hh, hc]

/-- Otherwise the step takes the first input. -/
theorem step_of_input {s : State} (hs : s.stopped = false) (hh : s.half = none ∨ s.callBackNext = true) :
    step s = s.takeInput := by
  cases e : s.half with
  | none => simp [step, State.advance, hs, e]
  | some h => simp [step, State.advance, hs, e, hh.resolve_left (by simp [e])]

/-- Everything a step that answers can have done: nothing, a change of memory, one decoded operation, or the second half of a
word access. -/
theorem step_cases {s t : State} (h : step s = .next t) :
    t = s.beginStep [] ∨ (∃ a d rest, t = (s.beginStep rest).storeByte a d) ∨
      (∃ f i rest, decode f = .ok i ∧ exec i (s.beginStep rest) = .next t) ∨
      ∃ w, s.half = some w ∧ s.callBackNext = false ∧ t = s.resumeWord w := by
  have take : s.takeInput = .next t → t = s.beginStep [] ∨ (∃ a d rest, t = (s.beginStep rest).storeByte a d) ∨
      ∃ f i rest, decode f = .ok i ∧ exec i (s.beginStep rest) = .next t := by
    intro h
    simp only [State.takeInput, runFrame] at h
    split at h
    · cases h; exact .inl rfl
    · cases h; exact .inr (.inl ⟨_, _, _, rfl⟩)
    all_goals
      split at h
      · exact .inr (.inr ⟨_, _, _, ‹_›, h⟩)
      · cases h
  simp only [step, State.advance] at h
  split at h
  · cases h
  · split at h
    · rcases take h with h | h | h
      exacts [.inl h, .inr (.inl h), .inr (.inr (.inl h))]
    · split at h
      · rcases take h with h | h | h
        exacts [.inl h, .inr (.inl h), .inr (.inr (.inl h))]
      · rename_i hc
        cases h
        exact .inr (.inr (.inr ⟨_, ‹_›, by simpa using hc, rfl⟩))

/-- The write of port 0x61, written out (45_speaker_timer_gate.md R200). -/
theorem iowPortb_eq (d : Byte) (s : State) :
    iowPortb d s =
      ({ s with portb := d, spkrData := d.getLsbD 1, channelCheck := d.getLsbD 3 }).withActions
        [.pitGate2 (d.getLsbD 0), .spkLevel (d.getLsbD 1 && s.pitOut2),
          .busNmiState (!s.nmiEnabled && !d.getLsbD 3)] := by
  simp [iowPortb, State.forwardSpeaker, State.forwardNmi, State.emit, State.withActions, State.nmiState,
    State.speakerLevel]

/-- The write of port 0x70, written out (44_nmi_diag_gate.md R190). -/
theorem iowRtc0_eq (d : Byte) (s : State) :
    iowRtc0 d s =
      ({ s with nmiEnabled := d.getLsbD 7 }).withActions
        [.rtcWrite 0 d, .busNmiState (!d.getLsbD 7 && !s.channelCheck)] := by
  simp [iowRtc0, State.forwardNmi, State.emit, State.withActions, State.nmiState]

end Sys2Proof.Machine
end

