-- ==== Sys2Proof/Laws/PerInstr.lean ====
section
/-! SUPPORT. For every operation: its presentation decodes to the operation itself, with every operand at every value the
presentation admits (30_encoding.md R80 to R87). -/

namespace Sys2Proof.Laws.RoundTrip

/-- Decoding what the encoder writes gives the operation back. -/
def Statement (i : Instr) : Prop := i.wf = true → decode (encode i) = .ok i

/-- The shape of a byte read's round trip. -/
theorem of_read {i : Instr} {p : Port} (he : encode i = readFrame p) (hd : decodeRead p = i) : decode (encode i) = .ok i := by
  rw [he, decode_readFrame, hd]

/-- The shape of a byte write's round trip. -/
theorem of_write {i : Instr} {p : Port} {d : Byte} (he : encode i = writeFrame p d) (hd : decodeWrite p d = i) :
    decode (encode i) = .ok i := by
  rw [he, decode_writeFrame, hd]

theorem iorDma1 (p : Port) : Statement (.iorDma1 p) := fun h =>
  of_read rfl (by simp only [decodeRead, portClass_dma1 h])

theorem iowDma1 (p : Port) (d : Byte) : Statement (.iowDma1 p d) := fun h =>
  of_write rfl (by simp only [decodeWrite, portClass_dma1 h])

theorem iorPic1 (p : Port) : Statement (.iorPic1 p) := fun h =>
  of_read rfl (by simp only [decodeRead, portClass_pic1 h])

theorem iowPic1 (p : Port) (d : Byte) : Statement (.iowPic1 p d) := fun h =>
  of_write rfl (by simp only [decodeWrite, portClass_pic1 h])

theorem iorPit (p : Port) : Statement (.iorPit p) := fun h =>
  of_read rfl (by simp only [decodeRead, portClass_pit h])

theorem iowPit (p : Port) (d : Byte) : Statement (.iowPit p d) := fun h =>
  of_write rfl (by simp only [decodeWrite, portClass_pit h])

theorem iorPic2 (p : Port) : Statement (.iorPic2 p) := fun h =>
  of_read rfl (by simp only [decodeRead, portClass_pic2 h])

theorem iowPic2 (p : Port) (d : Byte) : Statement (.iowPic2 p d) := fun h =>
  of_write rfl (by simp only [decodeWrite, portClass_pic2 h])

theorem iorUnmapped (p : Port) : Statement (.iorUnmapped p) := fun h =>
  of_read rfl (by simp only [decodeRead, portClass_unmapped h])

theorem iowUnmapped (p : Port) (d : Byte) : Statement (.iowUnmapped p d) := fun h =>
  of_write rfl (by simp only [decodeWrite, portClass_unmapped h])

theorem iorNoclaim (p : Port) : Statement (.iorNoclaim p) := fun h =>
  of_read rfl (by simp only [decodeRead, portClass_noclaim h])

theorem iowNoclaim (p : Port) (d : Byte) : Statement (.iowNoclaim p d) := fun h =>
  of_write rfl (by simp only [decodeWrite, portClass_noclaim h])

theorem iorPageSel (p : Port) : Statement (.iorPageSel p) := fun h => by
  simp only [Instr.wf, Bool.and_eq_true] at h
  exact of_read rfl (by simp only [decodeRead, portClass_pageSel h.1 h.2])

theorem iowPageSel (p : Port) (d : Byte) : Statement (.iowPageSel p d) := fun h => by
  simp only [Instr.wf, Bool.and_eq_true] at h
  exact of_write rfl (by simp only [decodeWrite, portClass_pageSel h.1 h.2])

theorem iorPageGen (p : Port) : Statement (.iorPageGen p) := fun h => by
  simp only [Instr.wf, Bool.and_eq_true, Bool.not_eq_true'] at h
  exact of_read rfl (by simp only [decodeRead, portClass_pageGen h.1 h.2])

theorem iowPageGen (p : Port) (d : Byte) : Statement (.iowPageGen p d) := fun h => by
  simp only [Instr.wf, Bool.and_eq_true, Bool.not_eq_true'] at h
  exact of_write rfl (by simp only [decodeWrite, portClass_pageGen h.1 h.2])

theorem iorDma2 (p : Port) : Statement (.iorDma2 p) := fun h => by
  simp only [Instr.wf, Bool.and_eq_true, decide_eq_true_eq] at h
  exact of_read rfl (by simp only [decodeRead, portClass_dma2 h.1 h.2])

theorem iowDma2 (p : Port) (d : Byte) : Statement (.iowDma2 p d) := fun h => by
  simp only [Instr.wf, Bool.and_eq_true, decide_eq_true_eq] at h
  exact of_write rfl (by simp only [decodeWrite, portClass_dma2 h.1 h.2])

theorem iorRtc (p : Port) : Statement (.iorRtc p) := fun h => by
  refine of_read rfl ?_
  have hw := Port.within_iff.1 h
  by_cases h0 : p.toNat = 0x70
  · simp (disch := omega) only [decodeRead, portClass_eq, if_pos, if_neg]
  · simp only [decodeRead, portClass_rtc (Port.within_iff.2 ⟨by omega, hw.2⟩)]

theorem iowRtc (p : Port) (d : Byte) : Statement (.iowRtc p d) := fun h =>
  of_write rfl (by simp only [decodeWrite, portClass_rtc h])

theorem iorKbdData : Statement .iorKbdData := fun _ => of_read rfl rfl

theorem iorPortb : Statement .iorPortb := fun _ => of_read rfl rfl

theorem iorKbdStatus : Statement .iorKbdStatus := fun _ => of_read rfl rfl

theorem iowKbdData (d : Byte) : Statement (.iowKbdData d) := fun _ => of_write rfl rfl

theorem iowPortb (d : Byte) : Statement (.iowPortb d) := fun _ => of_write rfl rfl

theorem iowKbdCmd (d : Byte) : Statement (.iowKbdCmd d) := fun _ => of_write rfl rfl

theorem iowRtc0 (d : Byte) : Statement (.iowRtc0 d) := fun _ => of_write rfl rfl

theorem ior16 (p : Port) : Statement (.ior16 p) := fun _ => rfl

theorem iow16 (p : Port) (w : Word) : Statement (.iow16 p w) := fun _ => rfl

theorem dmard8 (a : Word) : Statement (.dmard8 a) := fun _ => transferReadFormat_ok _ a

theorem dmard16 (a : Word) : Statement (.dmard16 a) := fun _ => transferReadFormat_ok _ a

theorem dmawr8 (a : Word) (d : Byte) : Statement (.dmawr8 a d) := fun _ => transferWriteFormat_ok _ a d

theorem dmawr16 (a : Word) (d : Byte) : Statement (.dmawr16 a d) := fun _ => transferWriteFormat_ok _ a d

theorem hrq1 (l : Bool) : Statement (.hrq1 l) := fun _ => lineFormat_ok _ l

theorem hrq2 (l : Bool) : Statement (.hrq2 l) := fun _ => lineFormat_ok _ l

theorem dack4 (l : Bool) : Statement (.dack4 l) := fun _ => lineFormat_ok _ l

theorem eop1 (l : Bool) : Statement (.eop1 l) := fun _ => lineFormat_ok _ l

theorem eop2 (l : Bool) : Statement (.eop2 l) := fun _ => lineFormat_ok _ l

theorem int2 (l : Bool) : Statement (.int2 l) := fun _ => lineFormat_ok _ l

theorem int1 (l : Bool) : Statement (.int1 l) := fun _ => lineFormat_ok _ l

theorem out2 (l : Bool) : Statement (.out2 l) := fun _ => lineFormat_ok _ l

theorem a20mask (l : Bool) : Statement (.a20mask l) := fun _ => lineFormat_ok _ l

theorem start : Statement .start := fun _ => rfl

theorem stop : Statement .stop := fun _ => rfl

theorem reset : Statement .reset := fun _ => rfl

theorem dior8 (c : Fin 4) : Statement (.dior8 c) := fun _ => peripheralReadFormat_ok _ c

theorem diow8 (c : Fin 4) (d : Byte) : Statement (.diow8 c d) := fun _ => peripheralWriteFormat_ok _ c d

theorem dior16 (j : Fin 4) : Statement (.dior16 j) := fun _ => peripheralReadFormat_ok _ j

theorem diow16 (j : Fin 4) (d : Byte) : Statement (.diow16 j d) := fun _ => peripheralWriteFormat_ok _ j d

theorem dack (c : Fin 8) (l : Bool) : Statement (.dack c l) := fun h => by
  have h : c ≠ 4 := by simpa [Instr.wf] using h
  simp only [decode, encode, eventFrame, decodeEvent, indexField_ofNat, levelField_levelWord]
  simp [bind, Except.bind, h]
  rfl

theorem drq (n : Fin 8) (l : Bool) : Statement (.drq n l) := fun h => by
  have h : n ≠ 4 := by simpa [Instr.wf] using h
  simp only [decode, encode, eventFrame, decodeEvent, indexField_ofNat, levelField_levelWord]
  simp [bind, Except.bind, h]
  rfl

theorem slaveack (n : Fin 8) : Statement (.slaveack n) := fun _ => by
  simp only [decode, encode, eventFrame, decodeEvent, indexField_ofNat, emptyField_zero]
  rfl

theorem irq (n : Nat) (l : Bool) : Statement (.irq n l) := fun h => by
  have h : n < 0x10000 := by simpa [Instr.wf] using h
  have hn : (BitVec.ofNat 16 n).toNat = n := by
    simp only [BitVec.toNat_ofNat]
    omega
  simp only [decode, encode, eventFrame, decodeEvent, levelField_levelWord, hn]
  rfl

theorem obirq (src : OnboardSource) (l : Bool) : Statement (.obirq src l) := fun _ => by
  simp only [decode, encode, eventFrame, decodeEvent, levelField_levelWord, sourceField_sourceWord]
  rfl

end Sys2Proof.Laws.RoundTrip
end

