-- ==== Sys2Proof/Tests/Slice0.lean ====
section
/-! SUPPORT. Tests. Expected values come from the spec: V and T numbers are those of 95_test_vectors.md, the ranges those
of 30_encoding.md R80 and 20_memory.md R58. The witnesses at the end show, for each statement with hypotheses, values
that meet them together. -/

namespace Sys2Proof.Tests

open Sys2Proof.Machine

/-! ## Helpers -/

def nextOf : Host.Outcome State Fault Refusal → Option State
  | .next t => some t
  | .fault _ => none
  | .refused _ => none

/-- What `f` shows of the next state. -/
def see {α : Type} (f : State → α) (o : Host.Outcome State Fault Refusal) : Option α := (nextOf o).map f

def refusalOf : Host.Outcome State Fault Refusal → Option Refusal
  | .next _ => none
  | .fault _ => none
  | .refused r => some r

/-- The state after reset, on a board that is written out. -/
def base : State := { State.reset with board := Board.fallback, a20Registered := false }

/-- Channel `c` owns the bus. -/
def owned (c : Fin 8) : State := { base with owner := .owned c }

/-- The collaborators will answer `ws`. -/
def answering (s : State) (ws : List Word) : State := { s with answers := ws }

/-- What a step emitted and returned. -/
def did (t : State) : List Action × Ret := (t.actions, t.ret)

/-! ## WellFormed refuses: one ill-formed term for each check -/

theorem test_wf_refuses_dma1_port : Instr.wf (.iorDma1 0x20) = false ∧ Instr.wf (.iowDma1 0x20 0) = false := by decide

theorem test_wf_refuses_pic1_port : Instr.wf (.iorPic1 0x1F) = false ∧ Instr.wf (.iowPic1 0x40 0) = false := by decide

theorem test_wf_refuses_pit_port : Instr.wf (.iorPit 0x3F) = false ∧ Instr.wf (.iowPit 0x60 0) = false := by decide

theorem test_wf_refuses_rtc_read_port : Instr.wf (.iorRtc 0x6F) = false ∧ Instr.wf (.iorRtc 0x80) = false := by decide

theorem test_wf_refuses_rtc_write_port :
    Instr.wf (.iowRtc 0x70 0) = false ∧ Instr.wf (.iowRtc 0x80 0) = false := by
  decide

theorem test_wf_refuses_page_select_offset :
    Instr.wf (.iorPageSel 0x84) = false ∧ Instr.wf (.iowPageSel 0x80 0) = false := by
  decide

theorem test_wf_refuses_page_select_port :
    Instr.wf (.iorPageSel 0xA1) = false ∧ Instr.wf (.iowPageSel 0x7F 0) = false := by
  decide

theorem test_wf_refuses_page_readback_offset :
    Instr.wf (.iorPageGen 0x87) = false ∧ Instr.wf (.iowPageGen 0x81 0) = false := by
  decide

theorem test_wf_refuses_page_readback_port :
    Instr.wf (.iorPageGen 0xA0) = false ∧ Instr.wf (.iowPageGen 0x7C 0) = false := by
  decide

theorem test_wf_refuses_pic2_port : Instr.wf (.iorPic2 0x9F) = false ∧ Instr.wf (.iowPic2 0xC0 0) = false := by decide

theorem test_wf_refuses_dma2_odd_port :
    Instr.wf (.iorDma2 0xC1) = false ∧ Instr.wf (.iowDma2 0xDF 0) = false := by
  decide

theorem test_wf_refuses_dma2_port : Instr.wf (.iorDma2 0xE0) = false ∧ Instr.wf (.iowDma2 0xBE 0) = false := by decide

theorem test_wf_refuses_unmapped_port :
    Instr.wf (.iorUnmapped 0x61) = false ∧ Instr.wf (.iowUnmapped 0x64 0) = false := by
  decide

theorem test_wf_refuses_unmapped_even_port :
    Instr.wf (.iorUnmapped 0xC0) = false ∧ Instr.wf (.iowUnmapped 0xE1 0) = false := by
  decide

theorem test_wf_refuses_noclaim_port :
    Instr.wf (.iorNoclaim 0xDF) = false ∧ Instr.wf (.iowNoclaim 0x00 0) = false := by
  decide

theorem test_wf_refuses_channel_four : Instr.wf (.dack 4 true) = false ∧ Instr.wf (.drq 4 true) = false := by decide

theorem test_wf_refuses_irq_line : Instr.wf (.irq 0x10000 true) = false := by decide

/-! ## Decode: one presentation for every operation, written out from R81 to R85 and R87 -/

theorem test_decode_iorDma1 : decode ⟨.port .read .byte, 0x001F, 0⟩ = .ok (.iorDma1 0x1F) := by decide

theorem test_decode_iowDma1 : decode ⟨.port .write .byte, 0x000A, 0x06⟩ = .ok (.iowDma1 0x0A 0x06) := by decide

theorem test_decode_iorPic1 : decode ⟨.port .read .byte, 0x0020, 0⟩ = .ok (.iorPic1 0x20) := by decide

theorem test_decode_iowPic1 : decode ⟨.port .write .byte, 0x003F, 0xAA⟩ = .ok (.iowPic1 0x3F 0xAA) := by decide

theorem test_decode_iorPit : decode ⟨.port .read .byte, 0x005F, 0⟩ = .ok (.iorPit 0x5F) := by decide

theorem test_decode_iowPit : decode ⟨.port .write .byte, 0x0043, 0xB6⟩ = .ok (.iowPit 0x43 0xB6) := by decide

theorem test_decode_iorKbdData : decode ⟨.port .read .byte, 0x0060, 0⟩ = .ok .iorKbdData := by decide

theorem test_decode_iowKbdData : decode ⟨.port .write .byte, 0x0060, 0xF4⟩ = .ok (.iowKbdData 0xF4) := by decide

theorem test_decode_iorPortb : decode ⟨.port .read .byte, 0x0061, 0⟩ = .ok .iorPortb := by decide

theorem test_decode_iowPortb : decode ⟨.port .write .byte, 0x0061, 0x03⟩ = .ok (.iowPortb 0x03) := by decide

theorem test_decode_iorKbdStatus : decode ⟨.port .read .byte, 0x0064, 0⟩ = .ok .iorKbdStatus := by decide

theorem test_decode_iowKbdCmd : decode ⟨.port .write .byte, 0x0064, 0xD1⟩ = .ok (.iowKbdCmd 0xD1) := by decide

theorem test_decode_iorRtc : decode ⟨.port .read .byte, 0x0070, 0⟩ = .ok (.iorRtc 0x70) := by decide

theorem test_decode_iowRtc0 : decode ⟨.port .write .byte, 0x0070, 0x80⟩ = .ok (.iowRtc0 0x80) := by decide

theorem test_decode_iowRtc : decode ⟨.port .write .byte, 0x007F, 0x80⟩ = .ok (.iowRtc 0x7F 0x80) := by decide

theorem test_decode_iorPageSel : decode ⟨.port .read .byte, 0x0093, 0⟩ = .ok (.iorPageSel 0x93) := by decide

theorem test_decode_iowPageSel : decode ⟨.port .write .byte, 0x008F, 0x0B⟩ = .ok (.iowPageSel 0x8F 0x0B) := by decide

theorem test_decode_iorPageGen : decode ⟨.port .read .byte, 0x009C, 0⟩ = .ok (.iorPageGen 0x9C) := by decide

theorem test_decode_iowPageGen : decode ⟨.port .write .byte, 0x0080, 0x55⟩ = .ok (.iowPageGen 0x80 0x55) := by decide

theorem test_decode_iorPic2 : decode ⟨.port .read .byte, 0x00A1, 0⟩ = .ok (.iorPic2 0xA1) := by decide

theorem test_decode_iowPic2 : decode ⟨.port .write .byte, 0x00BF, 0x01⟩ = .ok (.iowPic2 0xBF 0x01) := by decide

theorem test_decode_iorDma2 : decode ⟨.port .read .byte, 0x00DE, 0⟩ = .ok (.iorDma2 0xDE) := by decide

theorem test_decode_iowDma2 : decode ⟨.port .write .byte, 0x00D4, 0x04⟩ = .ok (.iowDma2 0xD4 0x04) := by decide

theorem test_decode_iorUnmapped : decode ⟨.port .read .byte, 0x00C1, 0⟩ = .ok (.iorUnmapped 0xC1) := by decide

theorem test_decode_iowUnmapped :
    decode ⟨.port .write .byte, 0x0063, 0x99⟩ = .ok (.iowUnmapped 0x63 0x99) := by
  decide

theorem test_decode_iorNoclaim : decode ⟨.port .read .byte, 0x0161, 0⟩ = .ok (.iorNoclaim 0x161) := by decide

theorem test_decode_iowNoclaim : decode ⟨.port .write .byte, 0x0481, 0x12⟩ = .ok (.iowNoclaim 0x481 0x12) := by decide

theorem test_decode_ior16 : decode ⟨.port .read .word, 0x001F, 0⟩ = .ok (.ior16 0x1F) := by decide

theorem test_decode_iow16 : decode ⟨.port .write .word, 0x0060, 0x0355⟩ = .ok (.iow16 0x60 0x0355) := by decide

theorem test_decode_dmard8 : decode ⟨.event .dmard8, 0x3456, 0⟩ = .ok (.dmard8 0x3456) := by decide

theorem test_decode_dmawr8 : decode ⟨.event .dmawr8, 0xFFFF, 0x5A⟩ = .ok (.dmawr8 0xFFFF 0x5A) := by decide

theorem test_decode_dmard16 : decode ⟨.event .dmard16, 0x8000, 0⟩ = .ok (.dmard16 0x8000) := by decide

theorem test_decode_dmawr16 : decode ⟨.event .dmawr16, 0x0001, 0xEF⟩ = .ok (.dmawr16 0x0001 0xEF) := by decide

theorem test_decode_hrq1 : decode ⟨.event .hrq1, 0, 1⟩ = .ok (.hrq1 true) := by decide

theorem test_decode_hrq2 : decode ⟨.event .hrq2, 0, 0⟩ = .ok (.hrq2 false) := by decide

theorem test_decode_dack : decode ⟨.event .dack, 2, 0⟩ = .ok (.dack 2 false) := by decide

theorem test_decode_dack4 : decode ⟨.event .dack4, 0, 1⟩ = .ok (.dack4 true) := by decide

theorem test_decode_eop1 : decode ⟨.event .eop1, 0, 1⟩ = .ok (.eop1 true) := by decide

theorem test_decode_eop2 : decode ⟨.event .eop2, 0, 0⟩ = .ok (.eop2 false) := by decide

theorem test_decode_dior8 : decode ⟨.event .dior8, 3, 0⟩ = .ok (.dior8 3) := by decide

theorem test_decode_diow8 : decode ⟨.event .diow8, 2, 0xA5⟩ = .ok (.diow8 2 0xA5) := by decide

theorem test_decode_dior16 : decode ⟨.event .dior16, 1, 0⟩ = .ok (.dior16 1) := by decide

theorem test_decode_diow16 : decode ⟨.event .diow16, 2, 0x34⟩ = .ok (.diow16 2 0x34) := by decide

theorem test_decode_drq : decode ⟨.event .drq, 7, 1⟩ = .ok (.drq 7 true) := by decide

theorem test_decode_int2 : decode ⟨.event .int2, 0, 1⟩ = .ok (.int2 true) := by decide

theorem test_decode_int1 : decode ⟨.event .int1, 0, 0⟩ = .ok (.int1 false) := by decide

theorem test_decode_slaveack : decode ⟨.event .slaveack, 2, 0⟩ = .ok (.slaveack 2) := by decide

theorem test_decode_irq : decode ⟨.event .irq, 2, 1⟩ = .ok (.irq 2 true) := by decide

theorem test_decode_obirq : decode ⟨.event .obirq, 1, 1⟩ = .ok (.obirq .clock true) := by decide

theorem test_decode_out2 : decode ⟨.event .out2, 0, 1⟩ = .ok (.out2 true) := by decide

theorem test_decode_start : decode ⟨.event .start, 0, 0⟩ = .ok .start := by decide

theorem test_decode_a20mask : decode ⟨.event .a20mask, 0, 1⟩ = .ok (.a20mask true) := by decide

theorem test_decode_stop : decode ⟨.event .stop, 0, 0⟩ = .ok .stop := by decide

theorem test_decode_reset : decode ⟨.event .reset, 0, 0⟩ = .ok .reset := by decide

/-- R89: "a `DACK` with channel 4 is `DACK4`". -/
theorem test_decode_dack_of_channel_four : decode ⟨.event .dack, 4, 0⟩ = .ok (.dack4 false) := by decide

/-- The neighbours of port 0x64 that no row binds (V12), and the odd ports above 0xC0 (V19). -/
theorem test_decode_unbound_neighbours :
    [0x62, 0x63, 0x65, 0x6F, 0xC1, 0xDF].all (fun p => decide (decode ⟨.port .read .byte, p, 0⟩ = .ok (.iorUnmapped p))) := by
  decide

/-- No aliasing above 0xFF (V21, V22). -/
theorem test_decode_no_aliasing :
    [0xE0, 0xFF, 0x100, 0x161, 0x481, 0xFFFF].all (fun p => decide (decode ⟨.port .read .byte, p, 0⟩ = .ok (.iorNoclaim p))) := by
  decide

theorem test_decode_refuses_unassigned_selector : decode ⟨.unassigned, 0, 0⟩ = .error .noSelector := by decide

theorem test_decode_refuses_wide_level : decode ⟨.event .hrq1, 0, 2⟩ = .error .level := by decide

theorem test_decode_refuses_wide_data_byte : decode ⟨.port .write .byte, 0x61, 0x100⟩ = .error .dataByte := by decide

theorem test_decode_refuses_channel_eight : decode ⟨.event .dack, 8, 0⟩ = .error .index := by decide

theorem test_decode_refuses_request_line_four : decode ⟨.event .drq, 4, 1⟩ = .error .index := by decide

theorem test_decode_refuses_controller_channel_four : decode ⟨.event .dior8, 4, 0⟩ = .error .index := by decide

theorem test_decode_refuses_fourth_source : decode ⟨.event .obirq, 3, 0⟩ = .error .source := by decide

theorem test_decode_refuses_stray_operand : decode ⟨.event .reset, 1, 0⟩ = .error .strayOperand := by decide

/-- Rows of opcode_table.json: the port's 16 bits with direction read (log 1), then the same with the direction bit. -/
theorem test_table_words :
    decodeTableWord 16 0x0020 = some (.iorPic1 0x20) ∧ decodeTableWord 16 0x00C1 = some (.iorUnmapped 0xC1) ∧
      decodeTableWord 33 0x100AA003F = some (.iowPic1 0x3F 0xAA) ∧ decodeTableWord 34 0x303550060 = some (.iow16 0x60 0x0355) := by
  decide

/-! ## Meanings: at most two small tests per operation -/

/-- V2. -/
theorem test_iorDma1 :
    see did (exec (.iorDma1 0x1F) (answering base [0x42])) = some ([.dma1Read 31], .u8 0x42) := by
  decide

/-- V3. -/
theorem test_iowDma1 :
    see did (exec (.iowDma1 0x0A 0x06) base) = some ([.dma1Write 10 0x06], .none) := by
  decide

/-- V4. -/
theorem test_iorPic1 :
    see did (exec (.iorPic1 0x20) (answering base [0x99])) = some ([.picRead .pic1 0], .u8 0x99) := by
  decide

/-- V5. -/
theorem test_iowPic1 :
    see did (exec (.iowPic1 0x3F 0xAA) base) = some ([.picWrite .pic1 31 0xAA], .none) := by
  decide

/-- V7. -/
theorem test_iorPit :
    see did (exec (.iorPit 0x5F) (answering base [0x07])) = some ([.pitRead 31], .u8 0x07) := by
  decide

/-- V6. -/
theorem test_iowPit :
    see did (exec (.iowPit 0x43 0xB6) base) = some ([.pitWrite 3 0xB6], .none) := by
  decide

/-- V8. -/
theorem test_iorKbdData :
    see did (exec (.iorKbdData) (answering base [0xFA])) = some ([.kbcDataR], .u8 0xFA) := by
  decide

/-- V9. -/
theorem test_iowKbdData :
    see did (exec (.iowKbdData 0xF4) base) = some ([.kbcDataW 0xF4], .none) := by
  decide

/-- V117. -/
theorem test_iorPortb_all_stored :
    see did (exec (.iorPortb) { answering base [1] with portb := 0xFF, pitOut2 := false }) =
      some ([.envRefreshToggle], .u8 0xDF) := by
  decide

/-- V121. -/
theorem test_iorPortb_after_reset :
    see State.ret (exec (.iorPortb) { answering base [0] with portb := 0xCF, spkrData := false }) =
      some (.u8 0xEF) := by
  decide

/-- V130. -/
theorem test_iowPortb :
    see (fun t => (t.actions, t.portb, t.spkrData, t.channelCheck)) (exec (.iowPortb 0x03) base) =
      some ([.pitGate2 true, .spkLevel true, .busNmiState true], 0x03, true, false) := by
  decide

/-- V132. -/
theorem test_iowPortb_channel_check :
    see (fun t => (t.actions, t.channelCheck)) (exec (.iowPortb 0x08) base) =
      some ([.pitGate2 false, .spkLevel false, .busNmiState false], true) := by
  decide

/-- V10. -/
theorem test_iorKbdStatus :
    see did (exec (.iorKbdStatus) (answering base [0x1C])) = some ([.kbcStatusR], .u8 0x1C) := by
  decide

/-- V11. -/
theorem test_iowKbdCmd :
    see did (exec (.iowKbdCmd 0xD1) base) = some ([.kbcCommandW 0xD1], .none) := by
  decide

/-- V116. -/
theorem test_iorRtc :
    see did (exec (.iorRtc 0x7F) (answering base [0x26])) = some ([.rtcRead 15], .u8 0x26) := by
  decide

/-- V110. -/
theorem test_iowRtc0 :
    see (fun t => (t.actions, t.nmiEnabled)) (exec (.iowRtc0 0x80) base) =
      some ([.rtcWrite 0 0x80, .busNmiState false], true) := by
  decide

/-- V111. -/
theorem test_iowRtc0_clear :
    see (fun t => (t.actions, t.nmiEnabled)) (exec (.iowRtc0 0x7F) { base with nmiEnabled := true }) =
      some ([.rtcWrite 0 0x7F, .busNmiState true], false) := by
  decide

/-- V115. -/
theorem test_iowRtc :
    see (fun t => (t.actions, t.nmiEnabled)) (exec (.iowRtc 0x7F 0x80) base) = some ([.rtcWrite 15 0x80], false) := by
  decide

/-- V43. -/
theorem test_iorPageSel :
    see did (exec (.iorPageSel 0x93) { base with page8 := #v[0x78, 0x12, 0x11, 0x34] }) = some ([], .u8 0x12) := by
  decide

/-- T2, V42. -/
theorem test_iorPageSel_word_set :
    see did (exec (.iorPageSel 0x89) { base with page16 := #v[0x0B, 0x23, 0x21, 0x22] }) = some ([], .u8 0x21) := by
  decide

/-- T2. -/
theorem test_iowPageSel :
    see (fun t => (t.page8, t.page16, t.actions)) (exec (.iowPageSel 0x81 0x12) base) =
      some (#v[0, 0, 0x12, 0], #v[0, 0, 0, 0], []) := by
  decide

/-- V42. -/
theorem test_iowPageSel_word_set :
    see (fun t => (t.page8, t.page16, t.actions)) (exec (.iowPageSel 0x8B 0x23) base) =
      some (#v[0, 0, 0, 0], #v[0, 0x23, 0, 0], []) := by
  decide

/-- V46. -/
theorem test_iorPageGen :
    see did (exec (.iorPageGen 0x9C) { base with gen := base.gen.set 12 0x66 }) = some ([], .u8 0x66) := by
  decide

/-- V45. -/
theorem test_iowPageGen :
    see (fun t => (t.gen.toList, t.page8)) (exec (.iowPageGen 0x80 0x55) base) =
      some (0x55 :: List.replicate 15 0, #v[0, 0, 0, 0]) := by
  decide

/-- V14. -/
theorem test_iorPic2 :
    see did (exec (.iorPic2 0xA1) (answering base [0x01])) = some ([.picRead .pic2 1], .u8 0x01) := by
  decide

/-- V15. -/
theorem test_iowPic2 :
    see did (exec (.iowPic2 0xBF 0x01) base) = some ([.picWrite .pic2 31 0x01], .none) := by
  decide

/-- V17. -/
theorem test_iorDma2 :
    see did (exec (.iorDma2 0xDE) (answering base [0x3C])) = some ([.dma2Read 15], .u8 0x3C) := by
  decide

/-- V18. -/
theorem test_iowDma2 :
    see did (exec (.iowDma2 0xD4 0x04) base) = some ([.dma2Write 10 0x04], .none) := by
  decide

/-- V12. -/
theorem test_iorUnmapped :
    see (fun t => (did t, t.answers)) (exec (.iorUnmapped 0x62) (answering base [0x00])) =
      some (([], .u8 0xFF), [0x00]) := by
  decide

/-- V13. -/
theorem test_iowUnmapped :
    see did (exec (.iowUnmapped 0x63 0x99) base) = some ([], .none) := by
  decide

/-- V21 and R116: no action, and another device's byte where one answers. -/
theorem test_iorNoclaim :
    see did (exec (.iorNoclaim 0x161) { base with platformReads := [some 0x5A] }) = some ([], .u8 0x5A) := by
  decide

/-- R116: `UNMAPPED_READ` where no other device answers; no answer of a collaborator is taken. -/
theorem test_iorNoclaim_nobody :
    see (fun t => (did t, t.answers)) (exec (.iorNoclaim 0x161) { answering base [0x5A] with platformReads := [none] }) =
      some (([], .u8 0xFF), [0x5A]) := by
  decide

/-- V22. -/
theorem test_iowNoclaim :
    see (fun t => (did t, t.page8)) (exec (.iowNoclaim 0x481 0x12) base) = some (([], .none), #v[0, 0, 0, 0]) := by
  decide

/-- V28. -/
theorem test_ior16_two_owners :
    see did (exec (.ior16 0x1F) (answering base [0x34, 0x12])) =
      some ([.dma1Read 31, .picRead .pic1 0], .u16 0x1234) := by
  decide

/-- V29. -/
theorem test_ior16_wraps :
    see did (exec (.ior16 0xFFFF) { answering base [0x12] with platformReads := [some 0x34] }) = some ([.dma1Read 0], .u16 0x1234) := by
  decide

/-- V25. -/
theorem test_iow16 :
    see (fun t => (t.actions, t.portb)) (exec (.iow16 0x60 0x0355) base) =
      some ([.kbcDataW 0x55, .pitGate2 true, .spkLevel true, .busNmiState true], 0x03) := by
  decide

/-- V30. -/
theorem test_iow16_clock :
    see State.actions (exec (.iow16 0x70 0x0A8F) base) =
      some [.rtcWrite 0 0x8F, .busNmiState false, .rtcWrite 1 0x0A] := by
  decide

/-- V48. -/
theorem test_dmard8 :
    see did (exec (.dmard8 0x3456) { answering (owned 2) [0xA5] with page8 := #v[0, 0, 0x12, 0] }) =
      some ([.memRead8 0x123456], .u8 0xA5) := by
  decide

/-- T13. -/
theorem test_dmard8_idle :
    see did (exec (.dmard8 0x1234) (answering base [0x00])) = some ([], .u8 0xFF) := by
  decide

/-- V50. -/
theorem test_dmawr8 :
    see (fun t => (t.actions, t.mem)) (exec (.dmawr8 0xFFFF 0x5A) { owned 1 with page8 := #v[0, 0xFF, 0, 0] }) =
      some ([.memWrite8 0xFFFFFF 0x5A], [(0xFFFFFF, 0x5A)]) := by
  decide

/-- V51. -/
theorem test_dmawr8_no_carry :
    see State.actions (exec (.dmawr8 0xFFFF 0x01) { owned 3 with page8 := #v[0, 0, 0, 0x0F] }) =
      some [.memWrite8 0x0FFFFF 0x01] := by
  decide

/-- V54: bit 0 of the page is ignored. -/
theorem test_dmard16 :
    see (fun t => (did t, t.hiLatch))
        (exec (.dmard16 0x8000) { answering (owned 5) [0xBEEF] with page16 := #v[0, 0x12, 0, 0] }) =
      some (([.memRead16 0x130000], .u8 0xEF), 0xBE) := by
  decide

/-- V58. -/
theorem test_dmard16_idle :
    see (fun t => (did t, t.hiLatch)) (exec (.dmard16 0x0000) { answering base [0x1234] with hiLatch := 0x77 }) =
      some (([], .u8 0xFF), 0x77) := by
  decide

/-- V55, and 20_memory.md R53 for the bytes. -/
theorem test_dmawr16 :
    see (fun t => (t.actions, t.mem, t.hiLatch))
        (exec (.dmawr16 0x0001 0xEF) { owned 6 with page16 := #v[0, 0, 0x04, 0], hiLatch := 0xBE }) =
      some ([.memWrite16 0x040002 0xBEEF], [(0x040002, 0xEF), (0x040003, 0xBE)], 0xBE) := by
  decide

/-- V56. -/
theorem test_dmawr16_top :
    see State.actions (exec (.dmawr16 0xFFFF 0x01) { owned 7 with page16 := #v[0, 0, 0, 0xFF] }) =
      some [.memWrite16 0xFFFFFE 0x0001] := by
  decide

/-- V70. -/
theorem test_hrq1 :
    see did (exec (.hrq1 true) base) = some ([.dma2Dreq 0 true], .none) := by
  decide

/-- V71. -/
theorem test_hrq2 :
    see did (exec (.hrq2 true) base) = some ([.cpuHalt true, .dma2Hack true], .none) := by
  decide

/-- V80. -/
theorem test_dack_grant_pending :
    see (fun t => (t.owner, t.actions)) (exec (.dack 6 false) { owned 2 with eop2 := true }) =
      some (.owned 6, [.busEop 6 true]) := by
  decide

/-- V75. -/
theorem test_dack_release :
    see (fun t => (t.owner, t.actions, t.eop1)) (exec (.dack 1 true) { owned 1 with eop1 := true }) =
      some (.idle, [.busEop 1 false], true) := by
  decide

/-- V72. -/
theorem test_dack4 :
    see (fun t => (t.owner, t.actions)) (exec (.dack4 false) (owned 2)) = some (.owned 2, [.dma1Hack true]) := by
  decide

/-- V85. -/
theorem test_eop1 :
    see (fun t => (t.eop1, t.eop2, t.actions)) (exec (.eop1 true) (owned 5)) =
      some (true, false, [.busEop 5 true]) := by
  decide

/-- V83. -/
theorem test_eop1_idle :
    see (fun t => (t.eop1, t.eop2, t.actions)) (exec (.eop1 true) base) = some (true, false, []) := by
  decide

/-- V84. -/
theorem test_eop2 :
    see (fun t => (t.eop1, t.eop2, t.actions)) (exec (.eop2 true) (owned 5)) =
      some (false, true, [.busEop 5 true]) := by
  decide

/-- V86. -/
theorem test_dior8 :
    see did (exec (.dior8 3) (answering base [0x42])) = some ([.busDackR 3], .u8 0x42) := by
  decide

/-- V87. -/
theorem test_diow8 :
    see did (exec (.diow8 0 0x00) base) = some ([.busDackW 0 0x00], .none) := by
  decide

/-- V88. -/
theorem test_dior16 :
    see (fun t => (did t, t.hiLatch)) (exec (.dior16 3) (answering base [0xFF01])) =
      some (([.busDack16R 7], .u8 0x01), 0xFF) := by
  decide

/-- V90. -/
theorem test_dior16_cascade :
    see (fun t => (did t, t.hiLatch)) (exec (.dior16 0) { answering base [0x0000] with hiLatch := 0x55 }) =
      some (([.busDack16R 4], .u8 0x00), 0x00) := by
  decide

/-- V89. -/
theorem test_diow16 :
    see (fun t => (t.actions, t.hiLatch)) (exec (.diow16 2 0x34) { base with hiLatch := 0x12 }) =
      some ([.busDack16W 6 0x1234], 0x12) := by
  decide

/-- V91. -/
theorem test_drq_primary :
    see did (exec (.drq 3 false) base) = some ([.dma1Dreq 3 false], .none) := by
  decide

/-- V91. -/
theorem test_drq_secondary :
    see did (exec (.drq 5 true) base) = some ([.dma2Dreq 1 true], .none) := by
  decide

/-- V100. -/
theorem test_int2 :
    see did (exec (.int2 true) base) = some ([.picIr ⟨.pic1, 2⟩ true], .none) := by
  decide

/-- V101. -/
theorem test_int1 :
    see did (exec (.int1 false) base) = some ([.cpuIntr false], .none) := by
  decide

/-- V103. -/
theorem test_slaveack_cascade :
    see did (exec (.slaveack 2) (answering base [0xFF])) = some ([.pic2Acknowledge], .u8 0xFF) := by
  decide

/-- V102. -/
theorem test_slaveack_other :
    see (fun t => (did t, t.answers)) (exec (.slaveack 7) (answering base [0xFF])) =
      some (([], .u8 0x00), [0xFF]) := by
  decide

/-- V104. -/
theorem test_irq :
    see did (exec (.irq 2 true) base) = some ([.picIr ⟨.pic2, 2⟩ true], .none) := by
  decide

/-- R10: a line outside the table is no input of the block. -/
theorem test_irq_outside_table : refusalOf (exec (.irq 3 true) base) = some .noSuchIrqLine := by decide

/-- V106, with the route of `base`. -/
theorem test_obirq :
    see did (exec (.obirq .clock true) base) = some ([.picIr ⟨.pic2, 0⟩ true], .none) := by
  decide

/-- V135. -/
theorem test_out2 :
    see (fun t => (t.actions, t.pitOut2)) (exec (.out2 false) { base with spkrData := true }) =
      some ([.spkLevel false], false) := by
  decide

/-- V136. -/
theorem test_out2_data_off :
    see (fun t => (t.actions, t.pitOut2)) (exec (.out2 true) { base with pitOut2 := false }) =
      some ([.spkLevel false], true) := by
  decide

/-- V140. -/
theorem test_start_with_gate :
    see (fun t => (t.a20Registered, t.actions, decide (t.block = base.block)))
        (exec (.start) { base with board := { Board.fallback with cpuHasA20Gate := true } }) =
      some (true, [], true) := by
  decide

/-- V141. -/
theorem test_start_without_gate :
    see (fun t => (t.a20Registered, t.actions)) (exec (.start) base) = some (false, []) := by
  decide

/-- V142. -/
theorem test_a20mask_on :
    see did (exec (.a20mask true) { base with a20Registered := true }) = some ([], .u24 0xFFFFFF) := by
  decide

/-- V142. -/
theorem test_a20mask_off :
    see did (exec (.a20mask false) { base with a20Registered := true }) = some ([], .u24 0xEFFFFF) := by
  decide

/-- V149. -/
theorem test_stop :
    see (fun t => (did t, decide (t.block = base.block))) (exec (.stop) base) = some (([], .none), true) := by
  decide

/-- T12, V145. -/
theorem test_reset_in_transfer :
    see (fun t => (t.owner, [t.eop1, t.eop2, t.spkrData, t.pitOut2], t.hiLatch, t.actions))
        (exec .reset { owned 6 with eop1 := true, eop2 := true, spkrData := true, pitOut2 := false, hiLatch := 0x9A }) =
      some (.idle, [false, false, false, true], 0x9A, []) := by
  decide

/-- V146. -/
theorem test_reset_leaves :
    see (fun t => (t.nmiEnabled, t.channelCheck, t.portb, t.actions))
        (exec (.reset) { base with nmiEnabled := true, channelCheck := true, portb := 0x0B }) =
      some (true, true, 0x0B, []) := by
  decide

/-- V60, V61. -/
theorem test_path_owner_mismatch :
    refusalOf (exec (.dmard8 0x0000) (owned 5)) = some .pathOwnerMismatch ∧
      refusalOf (exec (.dmawr16 0x0000 0x00) (owned 2)) = some .pathOwnerMismatch := by
  decide

/-- T9: both address formulas. -/
theorem test_address_formulas :
    byteAddr 0x13 0x8000 = 0x138000 ∧ byteAddr 0x0F 0xFFFF = 0x0FFFFF ∧ wordAddr 0x13 0x3456 = 0x1268AC ∧
      wordAddr 0x12 0x8000 = 0x130000 ∧ wordAddr 0x01 0x0000 = 0x000000 ∧ wordAddr 0xFF 0xFFFF = 0xFFFFFE := by
  decide

/-- A byte that was written answers for itself (R66; T3): the environment's answer is not used. -/
theorem test_written_byte_reads_back :
    see did
        (exec (.dmard8 0x0001) { answering (owned 1) [0x00] with page8 := #v[0, 0x13, 0, 0], mem := [(0x130001, 0xBE)] }) =
      some ([.memRead8 0x130001], .u8 0xBE) := by
  decide

/-- A step takes the first input and clears the last step's actions and return value. -/
theorem test_step_runs_the_first_input :
    see (fun t => (did t, t.inputs)) (step { base with
        inputs := [.op ⟨.event .int1, 0, 1⟩, .memStore 0 0], actions := [.kbcDataR], ret := .u8 0 }) =
      some (([.cpuIntr true], .none), [.memStore 0 0]) := by
  decide

/-- R56: with a call-back next in line a word write stops between its halves. -/
theorem test_word_write_stops_before_a_call_back :
    see (fun t => (t.actions, t.portb, t.half)) (exec (.iow16 0x60 0x0355) { base with inputs := [.callBack .out2 0 0] }) =
      some ([.kbcDataW 0x55], 0x00, some (.write 0x61 0x03)) := by
  decide

/-- R56: the call-back runs between the halves, ahead of the second. -/
theorem test_call_back_runs_between_the_halves :
    see (fun t => (t.half, t.pitOut2, t.inputs)) (step { base with
      half := some (.read 0x61 0x55), inputs := [.callBack .out2 0 0, .op ⟨.event .int1, 0, 1⟩] }) =
      some (some (.read 0x61 0x55), false, [.op ⟨.event .int1, 0, 1⟩]) := by
  decide

/-- R56, R117 (b): then the second half follows, ahead of any other input, and sees what the call-back changed. -/
theorem test_word_read_resumes :
    see (fun t => (did t, t.half, t.inputs)) (step { answering base [0x0000] with
      half := some (.read 0x61 0x55), portb := 0x03, pitOut2 := false, inputs := [.op ⟨.event .int1, 0, 1⟩] }) =
      some (([.envRefreshToggle], .u16 0x0355), none, [.op ⟨.event .int1, 0, 1⟩]) := by
  decide

theorem test_step_after_teardown : refusalOf (step { base with stopped := true }) = some .afterStop := by decide

theorem test_step_undecodable :
    refusalOf (step { base with inputs := [.op ⟨.event .drq, 4, 1⟩] }) = some (.undecodable .index) := by
  decide

/-- The table's word for an unbound port runs as the first operation after reset (V12). -/
theorem test_first_word_after_reset :
    see did (step (State.reset.withFetchWord 16 0x0062)) = some ([], .u8 0xFF) := by
  decide

/-! ## Witnesses: values that meet a statement's hypotheses, for every clause, at the ends of its range -/

/-- A byte read and a byte write of a port, decoded. -/
def decodes (p : Port) (d : Byte) (i j : Instr) : Bool :=
  decide (decode ⟨.port .read .byte, p, 0⟩ = .ok i) && decide (decode ⟨.port .write .byte, p, d.setWidth 16⟩ = .ok j)

theorem witness_DecodeOfEncodeIsTheOperation :
    Instr.wf (.iorDma1 0x1F) = true ∧ Instr.wf (.iowRtc 0x71 0xFF) = true ∧ Instr.wf (.dack 7 true) = true ∧
      Instr.wf (.irq 0xFFFF false) = true := by
  decide

theorem witness_DecodedOperationsAreWellFormed :
    decode ⟨.event .dack, 7, 1⟩ = .ok (.dack 7 true) ∧ decode ⟨.port .read .byte, 0x80, 0⟩ = .ok (.iorPageGen 0x80) := by
  decide

/-- The ends of a range: each port given is from `lo` to `hi`. -/
def inRange (ps : List Port) (lo hi : Nat) : Bool := ps.all fun p => decide (lo ≤ p.toNat) && decide (p.toNat ≤ hi)

/-- The hypothesis of an unbound port. -/
def isUnbound (p : Port) : Bool :=
  decide (p.toNat = 0x62 ∨ p.toNat = 0x63 ∨ (0x65 ≤ p.toNat ∧ p.toNat ≤ 0x6F) ∨
    (0xC1 ≤ p.toNat ∧ p.toNat ≤ 0xDF ∧ p.toNat % 2 = 1))

/-- Both ends of every range, and that they decode as the clause says. -/
theorem witness_PortMapDecodesByRange :
    (inRange [0x00, 0x1F] 0x00 0x1F ∧ [0x00, 0x1F].all fun p => decodes p 0xA5 (.iorDma1 p) (.iowDma1 p 0xA5)) ∧
    (inRange [0x20, 0x3F] 0x20 0x3F ∧ [0x20, 0x3F].all fun p => decodes p 0xA5 (.iorPic1 p) (.iowPic1 p 0xA5)) ∧
    (inRange [0x40, 0x5F] 0x40 0x5F ∧ [0x40, 0x5F].all fun p => decodes p 0xA5 (.iorPit p) (.iowPit p 0xA5)) ∧
    (inRange [0x60] 0x60 0x60 ∧ decodes 0x60 0xA5 .iorKbdData (.iowKbdData 0xA5)) ∧
    (inRange [0x61] 0x61 0x61 ∧ decodes 0x61 0xA5 .iorPortb (.iowPortb 0xA5)) ∧
    (inRange [0x64] 0x64 0x64 ∧ decodes 0x64 0xA5 .iorKbdStatus (.iowKbdCmd 0xA5)) ∧
    (inRange [0x70] 0x70 0x70 ∧ decodes 0x70 0xA5 (.iorRtc 0x70) (.iowRtc0 0xA5)) ∧
    (inRange [0x71, 0x7F] 0x71 0x7F ∧ [0x71, 0x7F].all fun p => decodes p 0xA5 (.iorRtc p) (.iowRtc p 0xA5)) ∧
    (inRange [0x81, 0x82, 0x83, 0x87, 0x9F] 0x80 0x9F ∧ [0x81, 0x82, 0x83, 0x87, 0x9F].all fun p =>
      decide (p.toNat % 8 ∈ [1, 2, 3, 7]) && decodes p 0xA5 (.iorPageSel p) (.iowPageSel p 0xA5)) ∧
    (inRange [0x80, 0x84, 0x85, 0x86, 0x9E] 0x80 0x9F ∧ [0x80, 0x84, 0x85, 0x86, 0x9E].all fun p =>
      decide (p.toNat % 8 ∈ [0, 4, 5, 6]) && decodes p 0xA5 (.iorPageGen p) (.iowPageGen p 0xA5)) ∧
    (inRange [0xA0, 0xBF] 0xA0 0xBF ∧ [0xA0, 0xBF].all fun p => decodes p 0xA5 (.iorPic2 p) (.iowPic2 p 0xA5)) ∧
    (inRange [0xC0, 0xDE] 0xC0 0xDF ∧ [0xC0, 0xDE].all fun p =>
      decide (p.toNat % 2 = 0) && decodes p 0xA5 (.iorDma2 p) (.iowDma2 p 0xA5)) ∧
    ([0x62, 0x63, 0x65, 0x6F, 0xC1, 0xDF].all fun p => isUnbound p && decodes p 0xA5 (.iorUnmapped p) (.iowUnmapped p 0xA5)) ∧
    (inRange [0xE0, 0x100, 0xFFFF] 0xE0 0xFFFF ∧ [0xE0, 0x100, 0xFFFF].all fun p =>
      decodes p 0xA5 (.iorNoclaim p) (.iowNoclaim p 0xA5)) := by
  refine ⟨?_, ?_, ?_, ?_, ?_, ?_, ?_, ?_, ?_, ?_, ?_, ?_, ?_, ?_⟩ <;> decide

theorem witness_ChipPortReadsQueryTheOwner :
    inRange [0x00, 0x1F] 0x00 0x1F ∧ inRange [0x20, 0x3F] 0x20 0x3F ∧ inRange [0x40, 0x5F] 0x40 0x5F ∧
      inRange [0x60] 0x60 0x60 ∧ inRange [0x64] 0x64 0x64 ∧ inRange [0x70, 0x7F] 0x70 0x7F ∧
      inRange [0xA0, 0xBF] 0xA0 0xBF := by
  decide

theorem witness_ChipPortWritesForwardTheByte :
    inRange [0x00, 0x1F] 0x00 0x1F ∧ inRange [0x20, 0x3F] 0x20 0x3F ∧ inRange [0x40, 0x5F] 0x40 0x5F ∧
      inRange [0x60] 0x60 0x60 ∧ inRange [0x64] 0x64 0x64 ∧ inRange [0x71, 0x7F] 0x71 0x7F ∧
      inRange [0xA0, 0xBF] 0xA0 0xBF := by
  decide

theorem witness_SecondaryDmaPortsAreEvenAndHalved :
    inRange [0xC0, 0xDE] 0xC0 0xDF ∧ [0xC0, 0xDE].all (fun p : Port => decide (p.toNat % 2 = 0)) := by
  decide

theorem witness_UnboundPortsReadAllOnesAndDiscardWrites :
    [0x62, 0x63, 0x65, 0x6F, 0xC1, 0xDF].all isUnbound := by
  decide

theorem witness_UndecodedPortsLeaveTheBlockAlone :
    inRange [0xE0, 0xFF, 0x100, 0xFFFF] 0xE0 0xFFFF ∧
      { base with platformReads := [some 0x5A] }.platformReads = some 0x5A :: [] ∧
      { base with platformReads := [none] }.platformReads = none :: [] := by
  decide

/-- Each of the four offsets, in the first and the last block; each set. -/
theorem witness_PageSelectPortsReachTheirRegister :
    ([(0x81, 1, 2), (0x82, 2, 3), (0x83, 3, 1), (0x87, 7, 0), (0x97, 7, 0)] : List (Port × Nat × Fin 4)).all (fun x =>
      decide (x.2 ∈ [(1, 2), (2, 3), (3, 1), (7, 0)]) && inRange [x.1] 0x80 0x9F && decide (x.1.toNat % 8 = x.2.1) &&
        decide (x.1.toNat / 8 % 2 = 0)) ∧
    ([(0x89, 1, 2), (0x9A, 2, 3), (0x9B, 3, 1), (0x9F, 7, 0)] : List (Port × Nat × Fin 4)).all (fun x =>
      decide (x.2 ∈ [(1, 2), (2, 3), (3, 1), (7, 0)]) && inRange [x.1] 0x80 0x9F && decide (x.1.toNat % 8 = x.2.1) &&
        decide (x.1.toNat / 8 % 2 = 1)) := by
  decide

theorem witness_GenericPagePortsTouchOnlyTheReadbackStore :
    ([(0x80, 0), (0x84, 4), (0x8D, 13), (0x9E, 14)] : List (Port × Fin 16)).all (fun x =>
      inRange [x.1] 0x80 0x9F && decide (x.1.toNat % 8 ∈ [0, 4, 5, 6]) && decide (x.2.val = x.1.toNat % 16)) := by
  decide

theorem witness_PagePortWriteReadsBackThereAndOnlyThere : inRange [0x80, 0x81, 0x91, 0x9F] 0x80 0x9F := by decide

theorem witness_ReadbackStoreReachesNothing :
    Instr.wf (.dack 2 false) = true ∧ (∃ t : State, exec (.dack 2 false) base = .next t) ∧
      (∀ p, Instr.dack 2 false ≠ .iorPageGen p) ∧ (∀ p d, Instr.dack 2 false ≠ .iowPageGen p d) ∧
      (∀ p, Instr.dack 2 false ≠ .ior16 p) ∧ (∀ p w, Instr.dack 2 false ≠ .iow16 p w) :=
  ⟨rfl, ⟨_, rfl⟩, nofun, nofun, nofun, nofun⟩

theorem witness_WordAddressIsEvenAndIgnoresThePagesLowBit :
    (0xFF : Byte).toNat / 2 = (0xFE : Byte).toNat / 2 ∧ (0x01 : Byte).toNat / 2 = (0x00 : Byte).toNat / 2 := by
  decide

theorem witness_ByteTransferReadUsesTheOwnersPage :
    base.owner = .idle ∧ ((owned 0).owner = .owned 0 ∧ (0 : Fin 4).val = (0 : Fin 8).val) ∧
      ((owned 3).owner = .owned 3 ∧ (3 : Fin 4).val = (3 : Fin 8).val) := by
  decide

theorem witness_ByteTransferWriteUsesTheOwnersPage :
    base.owner = .idle ∧ ((owned 0).owner = .owned 0 ∧ (0 : Fin 4).val = (0 : Fin 8).val) ∧
      ((owned 3).owner = .owned 3 ∧ (3 : Fin 4).val = (3 : Fin 8).val) ∧
      ((owned 5).owner = .owned 5 ∧ 5 ≤ (5 : Fin 8).val) ∧ ((owned 7).owner = .owned 7 ∧ 5 ≤ (7 : Fin 8).val) := by
  decide

theorem witness_WordTransferReadLatchesTheHighByte :
    base.owner = .idle ∧ ((owned 5).owner = .owned 5 ∧ (5 : Fin 8).val = (1 : Fin 4).val + 4 ∧ (5 : Fin 8) ≠ 4) ∧
      ((owned 7).owner = .owned 7 ∧ (7 : Fin 8).val = (3 : Fin 4).val + 4 ∧ (7 : Fin 8) ≠ 4) := by
  decide

theorem witness_WordTransferWriteJoinsLatchAndByte :
    base.owner = .idle ∧ ((owned 5).owner = .owned 5 ∧ (5 : Fin 8).val = (1 : Fin 4).val + 4 ∧ (5 : Fin 8) ≠ 4) ∧
      ((owned 7).owner = .owned 7 ∧ (7 : Fin 8).val = (3 : Fin 4).val + 4 ∧ (7 : Fin 8) ≠ 4) ∧
      ((owned 0).owner = .owned 0 ∧ (0 : Fin 8).val ≤ 3) ∧ ((owned 3).owner = .owned 3 ∧ (3 : Fin 8).val ≤ 3) := by
  decide

theorem witness_MismatchedTransfersAreRefused :
    ((owned 5).owner = .owned 5 ∧ 5 ≤ (5 : Fin 8).val) ∧ ((owned 7).owner = .owned 7 ∧ 5 ≤ (7 : Fin 8).val) ∧
      ((owned 0).owner = .owned 0 ∧ (0 : Fin 8).val ≤ 3) ∧ ((owned 3).owner = .owned 3 ∧ (3 : Fin 8).val ≤ 3) := by
  decide

/-- (a), (c): T3 and P2 on channel 5 and page 0x13, read back through channel 1. (b): the same word in memory. -/
theorem witness_WordTransfersRoundTripThroughTheLatch :
    (let s := { answering (owned 5) [0xBEEF] with page16 := #v[0, 0x13, 0, 0] };
      s.owner = .owned 5 ∧ (5 : Fin 8).val = (1 : Fin 4).val + 4 ∧ (5 : Fin 8) ≠ 4 ∧ s.answers = 0xBEEF :: []) ∧
    (let m : Memory := [(0x130000, 0xEF), (0x130001, 0xBE)];
      let u := { owned 1 with page8 := #v[0, 0x13, 0, 0], mem := m };
      see State.mem (exec (.dmawr16 0x8000 0xEF) { owned 5 with page16 := #v[0, 0x13, 0, 0], hiLatch := 0xBE }) = some m ∧
        u.owner = .owned 1 ∧ (1 : Fin 8).val = (1 : Fin 4).val ∧
        byteAddr (u.page8.get 1) 0x0000 = wordAddr 0x13 0x8000 ∧
        byteAddr (u.page8.get 1) 0x0001 = wordAddr 0x13 0x8000 + 1) ∧
    (let s := { owned 5 with page16 := #v[0, 0x13, 0, 0], mem := [(0x130000, 0xEF), (0x130001, 0xBE)] };
      s.owner = .owned 5 ∧ s.byteAt (wordAddr (s.page16.get 1) 0x8000) = some 0xEF ∧
        s.byteAt (wordAddr (s.page16.get 1) 0x8000 + 1) = some 0xBE) := by
  decide

theorem witness_AcknowledgeLinesMoveTheOwner :
    (∀ c ∈ ([0, 3, 5, 7] : List (Fin 8)), c ≠ 4) ∧
      (true = if (3 : Fin 8).val ≤ 3 then State.eop1 { owned 3 with eop1 := true } else false) ∧
      (true = if (5 : Fin 8).val ≤ 3 then false else State.eop2 { owned 5 with eop2 := true }) ∧
      (owned 3).owner = .owned 3 ∧ (owned 5).owner ≠ .owned 3 ∧ base.owner ≠ .owned 3 := by
  decide

theorem witness_EndOfProcessFollowsItsLine :
    base.owner = .idle ∧ (owned 0).owner = .owned 0 ∧ (owned 7).owner = .owned 7 := by
  decide

theorem witness_WordPeripheralTransfersUseTheLatch :
    (4 : Fin 8).val = (0 : Fin 4).val + 4 ∧ (7 : Fin 8).val = (3 : Fin 4).val + 4 := by
  decide

theorem witness_RequestLinesReachTheirController :
    ((0 : Fin 8) ≠ 4 ∧ (0 : Fin 4).val = (0 : Fin 8).val) ∧ ((3 : Fin 8) ≠ 4 ∧ (3 : Fin 4).val = (3 : Fin 8).val) ∧
      ((5 : Fin 8) ≠ 4 ∧ (1 : Fin 4).val + 4 = (5 : Fin 8).val) ∧ ((7 : Fin 8) ≠ 4 ∧ (3 : Fin 4).val + 4 = (7 : Fin 8).val) := by
  decide

theorem witness_PendingEndOfProcessIsDeliveredAtTheGrant :
    base.owner = .idle ∧ ∀ c ∈ ([0, 3, 5, 7] : List (Fin 8)), c ≠ 4 := by
  decide

theorem witness_RelaysAndPagePortsIgnoreTheOwner :
    (∃ c, Instr.dior8 3 = .dior8 c) ∧ (∃ c d, Instr.diow8 0 0 = .diow8 c d) ∧ (∃ j, Instr.dior16 1 = .dior16 j) ∧
      (∃ j d, Instr.diow16 2 0x34 = .diow16 j d) ∧ (∃ p, Instr.iorPageSel 0x81 = .iorPageSel p) ∧
      (∃ p d, Instr.iowPageSel 0x9F 0 = .iowPageSel p d) ∧ (∃ p, Instr.iorPageGen 0x80 = .iorPageGen p) ∧
      (∃ p d, Instr.iowPageGen 0x9E 0 = .iowPageGen p d) :=
  ⟨⟨_, rfl⟩, ⟨_, _, rfl⟩, ⟨_, rfl⟩, ⟨_, _, rfl⟩, ⟨_, rfl⟩, ⟨_, _, rfl⟩, ⟨_, rfl⟩, ⟨_, _, rfl⟩⟩

theorem witness_CascadeAcknowledgeComesFromTheSecondary : ∀ n ∈ ([0, 1, 3, 7] : List (Fin 8)), n ≠ 2 := by decide

theorem witness_InterruptRequestLinesFollowTheirRoute :
    base.board.wf = true ∧ irqRoute base.board 2 = some ⟨.pic2, 2⟩ ∧ onboardRoute base.board .timer0 = ⟨.pic1, 0⟩ ∧
      onboardRoute base.board .clock = ⟨.pic2, 0⟩ ∧ onboardRoute base.board .keyboard = ⟨.pic1, 1⟩ := by
  decide

theorem witness_OnlyTheSecondarysOutputDrivesTheCascadeInput :
    base.board.wf = true ∧ Board.fallback.wf = true ∧ (∃ t : State, exec (.int2 true) base = .next t) ∧
      (∃ t : State, exec (.irq 2 true) base = .next t) :=
  ⟨by decide, by decide, ⟨_, rfl⟩, ⟨_, rfl⟩⟩

theorem witness_DiagnosticsReadComposesStoredAndLiveBits :
    ∀ n ∈ ([0, 3, 4, 5, 6, 7] : List Nat), n < 8 := by
  decide

/-- One of the two writes, and an operation that is neither. -/
theorem witness_NmiStateIsForwardedByItsTwoWritesOnly :
    ((∀ p w, Instr.iowRtc0 0x80 ≠ .iow16 p w) ∧ ∃ t : State, exec (.iowRtc0 0x80) base = .next t) ∧
      ((∀ p w, Instr.iowPortb 0x08 ≠ .iow16 p w) ∧ ∃ t : State, exec (.iowPortb 0x08) base = .next t) ∧
      ((∀ p w, Instr.reset ≠ .iow16 p w) ∧ ∃ t : State, exec .reset base = .next t) :=
  ⟨⟨nofun, _, rfl⟩, ⟨nofun, _, rfl⟩, ⟨nofun, _, rfl⟩⟩

theorem witness_SpeakerLevelIsForwardedByItsTwoSourcesOnly :
    ((∀ p w, Instr.out2 true ≠ .iow16 p w) ∧ ∃ t : State, exec (.out2 true) base = .next t) ∧
      ((∀ p w, Instr.iowPortb 0x02 ≠ .iow16 p w) ∧ ∃ t : State, exec (.iowPortb 0x02) base = .next t) ∧
      ((∀ p w, Instr.reset ≠ .iow16 p w) ∧ ∃ t : State, exec .reset base = .next t) :=
  ⟨⟨nofun, _, rfl⟩, ⟨nofun, _, rfl⟩, ⟨nofun, _, rfl⟩⟩

theorem witness_StartRegistersTheA20CallbackIfTheCpuHasOne : base.a20Registered = false := by decide

theorem witness_A20MaskForcesBitTwentyLow :
    State.a20Registered { base with a20Registered := true } = true := by
  decide

/-- No call-back in line, one in line, and a second half that is due (R56). -/
theorem witness_WordReadIsTwoByteReads :
    base.callBackNext = false ∧ State.callBackNext { base with inputs := [.callBack .out2 0 0] } = true ∧
      (let u := { base with half := some (.read (0x60 + 1) 0x55), inputs := [.op ⟨.event .int1, 0, 1⟩] };
        u.stopped = false ∧ u.half = some (.read (0x60 + 1) 0x55) ∧ u.callBackNext = false) := by
  decide

theorem witness_WordWriteIsTwoByteWrites :
    base.callBackNext = false ∧ State.callBackNext { base with inputs := [.callBack .obirq 2 1] } = true ∧
      (let u := { base with half := some (.write (0xFFFF + 1) (BitVec.extractLsb' 8 8 (0x0355 : Word))) };
        u.stopped = false ∧ u.half = some (.write (0xFFFF + 1) (BitVec.extractLsb' 8 8 (0x0355 : Word))) ∧
          u.callBackNext = false) := by
  decide

theorem witness_StepRunsTheDecodedOperation :
    (let s := { base with inputs := [.op ⟨.port .read .byte, 0x81, 0⟩] };
      s.stopped = false ∧ s.half = none ∧ s.inputs = .op ⟨.port .read .byte, 0x81, 0⟩ :: [] ∧
        decode ⟨.port .read .byte, 0x81, 0⟩ = .ok (.iorPageSel 0x81)) ∧
    (let s := { base with half := some (.write 0x61 0x03), inputs := [.callBack .dack 2 0] };
      s.stopped = false ∧ s.inputs = .callBack .dack 2 0 :: [] ∧ decode ⟨.event .dack, 2, 0⟩ = .ok (.dack 2 false)) := by
  decide

theorem witness_StepsWithoutAnOperation :
    (base.stopped = false ∧ base.half = none ∧ base.inputs = []) ∧
    (let s := { base with inputs := [.memStore 0xFFFFFF 0x5A] };
      s.stopped = false ∧ s.half = none ∧ s.inputs = .memStore 0xFFFFFF 0x5A :: []) ∧
    (let s := { base with inputs := [.op ⟨.event .drq, 4, 1⟩] };
      s.stopped = false ∧ s.half = none ∧ s.inputs = .op ⟨.event .drq, 4, 1⟩ :: [] ∧
        decode ⟨.event .drq, 4, 1⟩ = .error .index) ∧
    (let s := { base with inputs := [.callBack .drq 4 1] };
      s.stopped = false ∧ s.half = none ∧ s.inputs = .callBack .drq 4 1 :: []) := by
  decide

/-- Both sides of the equivalence occur: each way of being ready, and each way of not being ready. -/
theorem witness_StepAnswersNextExactlyWhenReady :
    base.ready = true ∧ State.ready { base with inputs := [.memStore 0 0] } = true ∧
      State.ready { owned 2 with inputs := [.op ⟨.event .dmard8, 0, 0⟩] } = true ∧
      State.ready { owned 5 with inputs := [.op ⟨.event .dmard8, 0, 0⟩] } = false ∧
      State.ready { base with inputs := [.op ⟨.event .irq, 3, 0⟩] } = false ∧
      State.ready { base with inputs := [.op ⟨.event .a20mask, 0, 0⟩] } = false ∧
      State.ready { base with inputs := [.op ⟨.unassigned, 0, 0⟩] } = false ∧
      State.ready { base with half := some (.write 0x61 0x03), inputs := [.op ⟨.unassigned, 0, 0⟩] } = true ∧
      State.ready { base with half := some (.write 0x61 0x03), inputs := [.callBack .drq 4 1] } = false ∧
      State.ready { base with stopped := true } = false := by
  decide

/-- A run of one pending input of each kind that the statement admits. -/
theorem witness_CpuAccessesNeverStopTheMachine :
    base.stopped = false ∧
    ∀ x ∈ ([.memStore 0 0, .op ⟨.port .read .byte, 0xFFFF, 0⟩, .op ⟨.port .read .word, 0x1F, 0⟩,
        .op ⟨.port .write .byte, 0x61, 0x03⟩, .op ⟨.port .write .word, 0x60, 0x0355⟩] : List Input),
      (∃ a d, x = .memStore a d) ∨
      (∃ p : Port, x = .op ⟨.port .read .byte, p, 0⟩ ∨ x = .op ⟨.port .read .word, p, 0⟩) ∨
      (∃ (p : Port) (d : Byte), x = .op ⟨.port .write .byte, p, d.setWidth 16⟩) ∨
      (∃ (p : Port) (w : Word), x = .op ⟨.port .write .word, p, w⟩) := by
  refine ⟨rfl, fun x hx => ?_⟩
  simp only [List.mem_cons, List.not_mem_nil, or_false] at hx
  rcases hx with rfl | rfl | rfl | rfl | rfl
  · exact .inl ⟨_, _, rfl⟩
  · exact .inr (.inl ⟨_, .inl rfl⟩)
  · exact .inr (.inl ⟨_, .inr rfl⟩)
  · exact .inr (.inr (.inl ⟨0x61, 0x03, rfl⟩))
  · exact .inr (.inr (.inr ⟨_, _, rfl⟩))

/-- A state that meets the invariant and steps, with a grant pending. -/
theorem witness_EveryStepKeepsTheInvariant :
    let s := { owned 2 with mem := [(0x10, 1), (0xFFFFFF, 2)], inputs := [.op ⟨.event .dack, 5, 0⟩] }
    s.Inv ∧ ∃ t : State, step s = .next t :=
  ⟨⟨by decide, by decide, by decide, by decide⟩, ⟨_, rfl⟩⟩

/-- Stored byte 0x0A: channel check and speaker data set; a write of port 0x61 is pending. -/
theorem witness_StepKeepsPortbFlagsInSync :
    let s := { base with
      portb := 0x0A, channelCheck := true, spkrData := true, inputs := [.op ⟨.port .write .byte, 0x61, 0x03⟩] }
    s.PortbInSync ∧ ∃ t : State, step s = .next t :=
  ⟨⟨by decide, by decide⟩, ⟨_, rfl⟩⟩

/-- For every clause an operation that changes the field. -/
theorem witness_EachFieldHasItsOwnWriters :
    see (fun t => decide (t.page8 ≠ base.page8)) (exec (.iowPageSel 0x81 0x12) base) = some true ∧
      see (fun t => decide (t.page16 ≠ base.page16)) (exec (.iowPageSel 0x89 0x12) base) = some true ∧
      see (fun t => decide (t.gen ≠ base.gen)) (exec (.iowPageGen 0x80 0x12) base) = some true ∧
      see (fun t => decide (t.hiLatch ≠ base.hiLatch)) (exec (.dior16 1) (answering base [0xBEEF])) = some true ∧
      see (fun t => decide (t.owner ≠ base.owner)) (exec (.dack 2 false) base) = some true ∧
      see (fun t => decide (t.eop1 ≠ base.eop1)) (exec (.eop1 true) base) = some true ∧
      see (fun t => decide (t.eop2 ≠ base.eop2)) (exec (.eop2 true) base) = some true ∧
      see (fun t => decide (t.nmiEnabled ≠ base.nmiEnabled)) (exec (.iowRtc0 0x80) base) = some true ∧
      see (fun t => decide (t.channelCheck ≠ base.channelCheck)) (exec (.iowPortb 0x08) base) = some true ∧
      see (fun t => decide (t.portb ≠ base.portb)) (exec (.iowPortb 0x01) base) = some true ∧
      see (fun t => decide (t.spkrData ≠ base.spkrData)) (exec (.iowPortb 0x02) base) = some true ∧
      see (fun t => decide (t.pitOut2 ≠ base.pitOut2)) (exec (.out2 false) base) = some true ∧
      see (fun t => decide (t.mem ≠ base.mem)) (exec (.dmawr8 0x0000 0x01) (owned 0)) = some true ∧
      see (fun t => decide (t.half ≠ base.half)) (exec (.ior16 0x60) { base with inputs := [.callBack .out2 0 0] }) =
        some true := by
  decide

theorem witness_OnlyMemoryWritesTouchMemory :
    (∀ a d, Instr.iow16 0x60 0x0355 ≠ .dmawr8 a d) ∧ (∀ a d, Instr.iow16 0x60 0x0355 ≠ .dmawr16 a d) ∧
      ∃ t : State, exec (.iow16 0x60 0x0355) base = .next t :=
  ⟨nofun, nofun, ⟨_, rfl⟩⟩

theorem witness_OperationsOnlyAppendActions : ∃ t : State, exec (.hrq2 true) base = .next t := ⟨_, rfl⟩

end Sys2Proof.Tests
end

section
/-! The byte transfer's address (20_memory.md R61) as a number and as a concatenation. -/

namespace Sys2Proof.Machine

/-- The shift loses no bit of the page: eight bits above sixteen fill the 24. -/
theorem toNat_shiftedPage (page : Byte) : (page.setWidth 24 <<< 16).toNat = page.toNat * 65536 := by
  have hpage : page.toNat < 256 := page.isLt
  rw [BitVec.toNat_shiftLeft, BitVec.toNat_setWidth_of_le (by decide), Nat.shiftLeft_eq,
    Nat.mod_eq_of_lt (by omega)]

/-- The offset is below the shifted page's lowest bit, so R61's sum stays below 2^24 and does not carry. -/
theorem toNat_byteAddr (page : Byte) (off : Word) :
    (byteAddr page off).toNat = page.toNat * 65536 + off.toNat := by
  have hpage : page.toNat < 256 := page.isLt
  have hoff : off.toNat < 65536 := off.isLt
  have hoff24 : (off.setWidth 24).toNat = off.toNat := BitVec.toNat_setWidth_of_le (by decide)
  have noCarry : (page.setWidth 24 <<< 16).toNat + (off.setWidth 24).toNat < 2 ^ 24 := by
    rw [toNat_shiftedPage, hoff24]
    omega
  rw [byteAddr, BitVec.toNat_add_of_lt noCarry, toNat_shiftedPage, hoff24]

theorem toNat_pageAppendOffset (page : Byte) (off : Word) :
    (page ++ off).toNat = page.toNat * 65536 + off.toNat := by
  rw [BitVec.toNat_append, ← Nat.shiftLeft_add_eq_or_of_lt off.isLt, Nat.shiftLeft_eq]

/-- The sum and the concatenation are the same number, hence the same address. -/
theorem byteAddr_eq_append (page : Byte) (off : Word) : byteAddr page off = page ++ off :=
  BitVec.eq_of_toNat_eq (by rw [toNat_byteAddr, toNat_pageAppendOffset])

/-- Settles O17: the formula is the definition's own; the other two parts are the two laws above. -/
theorem byteAddressIsPageOverOffset : Obligations.ByteAddressIsPageOverOffset := by
  intro page off
  exact ⟨rfl, byteAddr_eq_append page off, toNat_byteAddr page off⟩

end Sys2Proof.Machine
end

section
/-! The chip accesses of a byte port access (40_port_decoder.md R120): the byte reads and writes behind the decoder append
actions of which at most one reads or writes a chip's register. -/

namespace Sys2Proof.Machine

/-- `t` follows `s` with actions appended, at most one of them an access to a register of an attached chip. -/
def State.ChipAccessAtMostOnce (s t : State) : Prop :=
  ∃ acts : List Action, t.actions = s.actions ++ acts ∧ (acts.filter Action.isChipAccess).length ≤ 1

theorem State.chipAccessAtMostOnce_of_no_action {s t : State} (h : t.actions = s.actions) :
    s.ChipAccessAtMostOnce t :=
  ⟨[], by rw [h, List.append_nil], Nat.zero_le 1⟩

theorem State.chipAccessAtMostOnce_of_one_action {s t : State} {a : Action} (h : t.actions = s.actions ++ [a]) :
    s.ChipAccessAtMostOnce t :=
  ⟨[a], h, List.length_filter_le Action.isChipAccess [a]⟩

@[simp] theorem State.writeCell_actions (c : PageCell) (d : Byte) (s : State) : (s.writeCell c d).actions = s.actions := by
  cases c <;> rfl

/-- A byte read records at most one query, and returning its byte records nothing more. -/
theorem portIn_chipAccessAtMostOnce (p : Port) (s : State) :
    s.ChipAccessAtMostOnce (State.giveByte (portIn p s)) := by
  have hret : (State.giveByte (portIn p s)).actions = (portIn p s).2.actions := rfl
  rcases portIn_snd p s with h | h | ⟨a, h⟩
  · exact State.chipAccessAtMostOnce_of_no_action (by rw [hret, h])
  · exact State.chipAccessAtMostOnce_of_no_action (by rw [hret, h, State.consumePlatform_actions])
  · exact State.chipAccessAtMostOnce_of_one_action (a := a)
      (by rw [hret, h, State.consume_actions, State.emit_actions])

/-- Port 0x61's write forwards three levels and reaches no register of a chip (45_speaker_timer_gate.md R200). -/
theorem iowPortb_chipAccessAtMostOnce (d : Byte) (s : State) : s.ChipAccessAtMostOnce (iowPortb d s) :=
  ⟨_, by rw [iowPortb_eq]; rfl, by simp [List.filter, Action.isChipAccess]⟩

/-- Of port 0x70's two actions, the clock's register write is an access and the forwarded NMI state is none
(44_nmi_diag_gate.md R190). -/
theorem iowRtc0_chipAccessAtMostOnce (d : Byte) (s : State) : s.ChipAccessAtMostOnce (iowRtc0 d s) :=
  ⟨_, by rw [iowRtc0_eq]; rfl, by simp [List.filter, Action.isChipAccess]⟩

/-- Only ports 0x61 and 0x70 record more than one action; a page write or a discarded write records none, and every other
write is forwarded as one. -/
theorem portOut_chipAccessAtMostOnce (p : Port) (d : Byte) (s : State) : s.ChipAccessAtMostOnce (portOut p d s) := by
  unfold portOut
  cases portClass p
  case portb => exact iowPortb_chipAccessAtMostOnce d s
  case rtcSelect => exact iowRtc0_chipAccessAtMostOnce d s
  case pageSel | pageGen => exact State.chipAccessAtMostOnce_of_no_action (State.writeCell_actions _ d s)
  case unmapped | noclaim => exact State.chipAccessAtMostOnce_of_no_action rfl
  case dma1 | pic1 | pit | kbdData | kbdControl | rtc | pic2 | dma2 =>
    exact State.chipAccessAtMostOnce_of_one_action rfl

/-- Settles O5: the handlers are the decoder's own two operations, whose meanings are the byte read and write above. -/
theorem everyPortAccessHasOneHandler : Obligations.EveryPortAccessHasOneHandler := by
  intro p d
  refine ⟨decodeRead p, decodeWrite p d, decode_readFrame p, decode_writeFrame p d, fun s => ⟨?read, ?write⟩⟩
  case read =>
    obtain ⟨acts, hactions, honce⟩ := portIn_chipAccessAtMostOnce p s
    exact ⟨_, acts, exec_decodeRead p s, hactions, honce⟩
  case write =>
    obtain ⟨acts, hactions, honce⟩ := portOut_chipAccessAtMostOnce p d s
    exact ⟨_, acts, exec_decodeWrite p d s, hactions, honce⟩

end Sys2Proof.Machine
end

section
/-! The operations of 42_dma_arbiter.md that only relay: hold request and cascade acknowledge (R151, R154) and the byte
transfers on the peripheral side (R157, R158). -/

namespace Sys2Proof.Machine

theorem State.emit_eq_withActions (a : Action) (s : State) : s.emit a = s.withActions [a] := rfl

/-- Actions recorded one list after the other stand in that order (00_scope.md R6). -/
theorem State.withActions_withActions (before after : List Action) (s : State) :
    (s.withActions before).withActions after = s.withActions (before ++ after) := by
  simp only [State.withActions, List.append_assoc]

theorem exec_hrq2 (l : Bool) (s : State) : exec (.hrq2 l) s = .next ((s.emit (.cpuHalt l)).emit (.dma2Hack l)) := rfl

theorem exec_dack4 (l : Bool) (s : State) : exec (.dack4 l) s = .next (s.emit (.dma1Hack (!l))) := rfl

theorem exec_dior8 (c : Fin 4) (s : State) : exec (.dior8 c) s = .next (State.giveByte (s.askByte (.busDackR c))) := rfl

theorem exec_diow8 (c : Fin 4) (d : Byte) (s : State) : exec (.diow8 c d) s = .next (s.emit (.busDackW c d)) := rfl

/-- Settles O26: the halt is recorded before the hold acknowledge, and the cascade acknowledge is one inverted action. -/
theorem holdRequestOfTheSecondaryHaltsTheCpu : Obligations.HoldRequestOfTheSecondaryHaltsTheCpu := by
  intro l s
  constructor
  case left =>
    have haltThenAcknowledge :
        (s.emit (.cpuHalt l)).emit (.dma2Hack l) = s.withActions [.cpuHalt l, .dma2Hack l] := by
      rw [State.emit_eq_withActions, State.emit_eq_withActions, State.withActions_withActions, List.singleton_append]
    rw [exec_hrq2, haltThenAcknowledge]
  case right => rw [exec_dack4, State.emit_eq_withActions]

/-- Settles O29: the read is one byte query that is returned, the write one action; neither looks at the owner. -/
theorem bytePeripheralTransfersAreRelayed : Obligations.BytePeripheralTransfersAreRelayed := by
  intro c d s
  constructor
  case left => rw [exec_dior8, State.giveByte_askByte]
  case right => rw [exec_diow8, State.emit_eq_withActions]

end Sys2Proof.Machine
end

section
/-! The two tables of 43_irq_cascade.md section 3, and the meanings of the two interrupt outputs and the request lines. -/

namespace Sys2Proof.Machine

theorem exec_int2 (l : Bool) (s : State) : exec (.int2 l) s = .next (s.withActions [.picIr Board.cascadeInput l]) := rfl

theorem exec_int1 (l : Bool) (s : State) : exec (.int1 l) s = .next (s.withActions [.cpuIntr l]) := rfl

/-- A request line that answers at all has a row, and is forwarded to that row's input (R184). -/
theorem exec_irq_next {n : Nat} {l : Bool} {s t : State} (h : exec (.irq n l) s = .next t) :
    ∃ dst, irqRoute s.board n = some dst ∧ t = s.withActions [.picIr dst l] := by
  simp only [exec, execIrq] at h
  split at h
  next dst hroute => cases h; exact ⟨dst, hroute, rfl⟩
  next => cases h

theorem exec_obirq (src : OnboardSource) (l : Bool) (s : State) :
    exec (.obirq src l) s = .next (s.withActions [.picIr (onboardRoute s.board src) l]) := rfl

/-- What a line is routed to stands in some row of the table. -/
theorem mem_irqRows_of_irqRoute {b : Board} {n : Nat} {dst : PicInput} (h : irqRoute b n = some dst) :
    (n, dst) ∈ b.irqRows := by
  obtain ⟨before, after, hrows, -⟩ := List.lookup_eq_some_iff.mp h
  rw [hrows]
  exact List.mem_append_right before List.mem_cons_self

theorem onboardRoute_mem_onboardInputs (b : Board) (src : OnboardSource) : onboardRoute b src ∈ b.onboardInputs := by
  cases src <;> simp [onboardRoute, Board.onboardInputs]

/-- The constraints on the tables, one proposition per rule (R184 (a), R184 (b), R185 with R186). -/
theorem board_wf_iff (b : Board) :
    b.wf = true ↔ irqRoute b 2 = some ⟨.pic2, 2⟩ ∧ (∀ r ∈ b.irqRows, r.2 ≠ Board.cascadeInput) ∧
      ∀ dst ∈ b.onboardInputs, dst ≠ Board.cascadeInput ∧ ∀ r ∈ b.irqRows, r.2 ≠ dst := by
  simp only [Board.wf, irqRoute, Bool.and_eq_true, decide_eq_true_eq, List.all_eq_true, and_assoc]

theorem irqRoute_ne_cascadeInput {b : Board} (hwf : b.wf = true) (n : Nat) : irqRoute b n ≠ some Board.cascadeInput := by
  intro hroute
  obtain ⟨-, hrows, -⟩ := (board_wf_iff b).mp hwf
  exact hrows _ (mem_irqRows_of_irqRoute hroute) rfl

theorem onboardRoute_ne_cascadeInput {b : Board} (hwf : b.wf = true) (src : OnboardSource) :
    onboardRoute b src ≠ Board.cascadeInput := by
  obtain ⟨-, -, honboard⟩ := (board_wf_iff b).mp hwf
  exact (honboard _ (onboardRoute_mem_onboardInputs b src)).1

/-- Settles O34: each output is one forwarded action, the secondary's to the input `CASCADE_IR` names. -/
theorem interruptOutputsAreCascaded : Obligations.InterruptOutputsAreCascaded := by
  intro l s
  exact ⟨exec_int2 l s, exec_int1 l s⟩

end Sys2Proof.Machine
end

section
/-! Which actions a step adds: `State.Records P s t` says that `t` follows `s` with actions appended that all meet `P`
(00_scope.md R6), and the shared operations get one lemma each. -/

namespace Sys2Proof.Machine

/-- `t` follows `s` with actions appended, each of which meets `P`. -/
def State.Records (P : Action → Prop) (s t : State) : Prop :=
  ∃ acts : List Action, t.actions = s.actions ++ acts ∧ ∀ a ∈ acts, P a

theorem State.records_of_no_action {P : Action → Prop} {s t : State} (h : t.actions = s.actions) : s.Records P t :=
  ⟨[], by rw [h, List.append_nil], nofun⟩

theorem State.records_of_one_action {P : Action → Prop} {s t : State} {a : Action}
    (h : t.actions = s.actions ++ [a]) (ha : P a) : s.Records P t :=
  ⟨[a], h, List.forall_mem_singleton.mpr ha⟩

theorem State.Records.trans {P : Action → Prop} {s t u : State} (hst : s.Records P t) (htu : t.Records P u) :
    s.Records P u := by
  obtain ⟨first, hfirst, hPfirst⟩ := hst
  obtain ⟨second, hsecond, hPsecond⟩ := htu
  exact ⟨first ++ second, by rw [hsecond, hfirst, List.append_assoc], List.forall_mem_append.mpr ⟨hPfirst, hPsecond⟩⟩

/-- The flag decides whether the level is forwarded; if it is, it is the only action. -/
theorem State.forwardEopIf_records {P : Action → Prop} {c : Fin 8} {level : Bool} (hP : P (.busEop c level)) (flag : Bool)
    (s : State) : s.Records P (s.forwardEopIf flag c level) := by
  cases flag
  case false => exact State.records_of_no_action rfl
  case true => exact State.records_of_one_action rfl hP

theorem State.forwardEopToOwner_records {P : Action → Prop} {level : Bool} (hP : ∀ c, P (.busEop c level)) (s : State) :
    s.Records P (s.forwardEopToOwner level) := by
  cases howner : s.owner with
  | idle => exact State.records_of_no_action (by rw [State.forwardEopToOwner_idle level howner])
  | owned c =>
    exact State.records_of_one_action (by rw [State.forwardEopToOwner_owned level howner, State.withActions_actions]) (hP c)

/-- An acknowledge line adds at most the end-of-process level of its own channel (42_dma_arbiter.md R161). -/
theorem State.grant_records {P : Action → Prop} {c : Fin 8} (hP : P (.busEop c true)) (s : State) :
    s.Records P (s.grant c) :=
  State.forwardEopIf_records hP (s.eopFlag c) { s with owner := .owned c }

theorem State.release_records {P : Action → Prop} {c : Fin 8} (hP : P (.busEop c false)) (s : State) :
    s.Records P (s.release c) := by
  by_cases howner : s.owner = .owned c
  case pos =>
    rw [State.release, if_pos howner]
    exact State.forwardEopIf_records hP (s.eopFlag c) { s with owner := .idle }
  case neg => exact State.records_of_no_action (by rw [State.release_other howner])

/-- A word access adds what its first half adds and then at most what its second half adds (20_memory.md R56). -/
theorem State.afterFirstHalf_records {P : Action → Prop} {s t : State} {h : WordHalf} (hfirst : s.Records P t)
    (hsecond : t.Records P (t.secondHalf h)) : s.Records P (t.afterFirstHalf h) := by
  rcases State.afterFirstHalf_cases h t with hwait | hdone
  case inl => rw [hwait]; exact hfirst.trans (State.records_of_no_action rfl)
  case inr => rw [hdone]; exact hfirst.trans hsecond

end Sys2Proof.Machine
end

section
/-! The cascade input of the primary controller (43_irq_cascade.md R186): no operation but `INT2` drives it. -/

namespace Sys2Proof.Machine

/-- The action holds no level for the cascade input. -/
def Action.SparesCascade (a : Action) : Prop := ∀ l : Bool, a ≠ .picIr Board.cascadeInput l

theorem Action.picIr_sparesCascade {dst : PicInput} (h : dst ≠ Board.cascadeInput) (l : Bool) :
    (Action.picIr dst l).SparesCascade := by
  intro l' heq
  exact h (Action.picIr.inj heq).1

/-- A byte read adds no action or one query, and no query is a request line. -/
theorem portIn_sparesCascade (p : Port) (s : State) : s.Records Action.SparesCascade (portIn p s).2 := by
  unfold portIn
  cases portClass p
  case unmapped | pageSel | pageGen | noclaim => exact State.records_of_no_action rfl
  case dma1 | pic1 | pit | kbdData | portb | kbdControl | rtcSelect | rtc | pic2 | dma2 =>
    exact State.records_of_one_action rfl (by nofun)

theorem iowPortb_sparesCascade (d : Byte) (s : State) : s.Records Action.SparesCascade (iowPortb d s) :=
  ⟨_, by rw [iowPortb_eq]; rfl, by simp [Action.SparesCascade]⟩

theorem iowRtc0_sparesCascade (d : Byte) (s : State) : s.Records Action.SparesCascade (iowRtc0 d s) :=
  ⟨_, by rw [iowRtc0_eq]; rfl, by simp [Action.SparesCascade]⟩

/-- A byte write reaches a chip's registers or the forwarded levels, never a request line. -/
theorem portOut_sparesCascade (p : Port) (d : Byte) (s : State) : s.Records Action.SparesCascade (portOut p d s) := by
  unfold portOut
  cases portClass p
  case portb => exact iowPortb_sparesCascade d s
  case rtcSelect => exact iowRtc0_sparesCascade d s
  case pageSel | pageGen => exact State.records_of_no_action (State.writeCell_actions _ d s)
  case unmapped | noclaim => exact State.records_of_no_action rfl
  case dma1 | pic1 | pit | kbdData | kbdControl | rtc | pic2 | dma2 => exact State.records_of_one_action rfl (by nofun)

theorem secondHalf_sparesCascade (h : WordHalf) (s : State) : s.Records Action.SparesCascade (s.secondHalf h) := by
  cases h with
  | read p lo => exact (portIn_sparesCascade p s).trans (State.records_of_no_action rfl)
  | write p d => exact portOut_sparesCascade p d s

/-- The acknowledge mux asks `Pic2` or nobody (R182). -/
theorem execSlaveack_sparesCascade {n : Fin 8} {s t : State} (h : execSlaveack n s = .next t) :
    s.Records Action.SparesCascade t := by
  simp only [execSlaveack] at h
  split at h <;> cases h
  next => exact State.records_of_one_action rfl (by nofun)
  next => exact State.records_of_no_action rfl

theorem execDack_sparesCascade {c : Fin 8} {l : Bool} {s t : State} (h : execDack c l s = .next t) :
    s.Records Action.SparesCascade t := by
  simp only [execDack] at h
  split at h <;> cases h
  next => exact State.grant_records (by nofun) s
  next => exact State.release_records (by nofun) s

/-- Apart from `INT2`, only the two kinds of request line add a level of an interrupt input at all, and the tables send
neither to the cascade input. -/
theorem exec_sparesCascade {i : Instr} {s t : State} (hwf : s.board.wf = true) (hi : ∀ l, i ≠ .int2 l)
    (h : exec i s = .next t) : s.Records Action.SparesCascade t := by
  cases i
  case int2 l => exact absurd rfl (hi l)
  case irq n l =>
    obtain ⟨dst, hroute, rfl⟩ := exec_irq_next h
    have hdst : dst ≠ Board.cascadeInput := fun heq => irqRoute_ne_cascadeInput hwf n (heq ▸ hroute)
    exact State.records_of_one_action rfl (Action.picIr_sparesCascade hdst l)
  case obirq src l =>
    cases h
    exact State.records_of_one_action rfl (Action.picIr_sparesCascade (onboardRoute_ne_cascadeInput hwf src) l)
  case ior16 p =>
    cases h
    exact State.afterFirstHalf_records (portIn_sparesCascade p s) (secondHalf_sparesCascade _ _)
  case iow16 p w =>
    cases h
    exact State.afterFirstHalf_records (portOut_sparesCascade p (lowByte w) s) (secondHalf_sparesCascade _ _)
  case iowPortb d => cases h; exact iowPortb_sparesCascade d s
  case iowRtc0 d => cases h; exact iowRtc0_sparesCascade d s
  case slaveack n => exact execSlaveack_sparesCascade h
  case dack c l => exact execDack_sparesCascade h
  case eop1 l => cases h; exact State.forwardEopToOwner_records (by nofun) { s with eop1 := l }
  case eop2 l => cases h; exact State.forwardEopToOwner_records (by nofun) { s with eop2 := l }
  case hrq2 l => cases h; exact ⟨[.cpuHalt l, .dma2Hack l], by simp, by simp [Action.SparesCascade]⟩
  case drq n l =>
    cases h
    exact State.records_of_one_action rfl (by split <;> nofun)
  case dmard8 | dmawr8 | dmard16 | dmawr16 =>
    simp only [exec, execDmard8, execDmawr8, execDmard16, execDmawr16] at h
    split at h
    · cases h; exact State.records_of_no_action rfl
    · split at h <;> cases h
      exact State.records_of_one_action rfl (by nofun)
  case a20mask l =>
    simp only [exec, execA20mask] at h
    split at h <;> cases h
    exact State.records_of_no_action rfl
  case iowPageSel | iowPageGen => cases h; exact State.records_of_no_action (State.writeCell_actions _ _ s)
  case iorPageSel | iorPageGen | iorUnmapped | iowUnmapped | iorNoclaim | iowNoclaim | start | stop | reset =>
    cases h
    exact State.records_of_no_action rfl
  case iorDma1 | iorPic1 | iorPit | iorKbdData | iorPortb | iorKbdStatus | iorRtc | iorPic2 | iorDma2 | iowDma1 | iowPic1
      | iowPit | iowKbdData | iowKbdCmd | iowRtc | iowPic2 | iowDma2 | hrq1 | dack4 | dior8 | diow8 | dior16 | diow16
      | int1 | out2 =>
    cases h
    exact State.records_of_one_action rfl (by nofun)

/-- `INT2` adds its own level and no other; every other operation spares the cascade input (R186). -/
theorem exec_drivesCascade_only_int2 {i : Instr} {s t : State} (hwf : s.board.wf = true) (h : exec i s = .next t) :
    ∃ acts : List Action, t.actions = s.actions ++ acts ∧
      ∀ l : Bool, .picIr Board.cascadeInput l ∈ acts → i = .int2 l := by
  by_cases hi : ∃ l, i = .int2 l
  case pos =>
    obtain ⟨level, rfl⟩ := hi
    cases h
    refine ⟨[.picIr Board.cascadeInput level], rfl, fun l hmem => ?_⟩
    obtain ⟨-, rfl⟩ := Action.picIr.inj (List.mem_singleton.mp hmem)
    rfl
  case neg =>
    obtain ⟨acts, hactions, hspares⟩ := exec_sparesCascade hwf (fun l heq => hi ⟨l, heq⟩) h
    exact ⟨acts, hactions, fun l hmem => absurd rfl (hspares _ hmem l)⟩

/-- Settles O37, from the actions of every operation, the constraints on the tables and the meaning of `INT2`. -/
theorem onlyTheSecondarysOutputDrivesTheCascadeInput : Obligations.OnlyTheSecondarysOutputDrivesTheCascadeInput := by
  refine ⟨fun i s t hwf h => exec_drivesCascade_only_int2 hwf h, fun b hwf => ⟨?_, ?_⟩, exec_int2⟩
  · exact irqRoute_ne_cascadeInput hwf
  · exact onboardRoute_ne_cascadeInput hwf

end Sys2Proof.Machine
end

section
/-! The NMI gate (44_nmi_diag_gate.md R192): the forwarded value read off the two flags, in both directions. -/

namespace Sys2Proof.Machine

theorem State.nmiState_eq_true_iff (s : State) :
    s.nmiState = true ↔ s.nmiEnabled = false ∧ s.channelCheck = false := by
  rw [State.nmiState, Bool.and_eq_true, Bool.not_eq_true', Bool.not_eq_true']

/-- The three other rows of R192's table: the negation of the one row that forwards 1. -/
theorem State.nmiState_eq_false_iff (s : State) :
    s.nmiState = false ↔ s.nmiEnabled = true ∨ s.channelCheck = true := by
  calc s.nmiState = false
    _ ↔ ¬ s.nmiState = true := (Bool.not_eq_true _).symm.to_iff
    _ ↔ ¬ (s.nmiEnabled = false ∧ s.channelCheck = false) := not_congr s.nmiState_eq_true_iff
    _ ↔ s.nmiEnabled = true ∨ s.channelCheck = true := by
      rw [not_and_or, Bool.not_eq_false, Bool.not_eq_false]

/-- Settles O38: one row of the table forwards 1, the other three forward 0. -/
theorem nmiStateIsBothFlagsClear : Obligations.NmiStateIsBothFlagsClear := by
  intro s
  exact ⟨s.nmiState_eq_true_iff, s.nmiState_eq_false_iff⟩

end Sys2Proof.Machine
end

section
/-! The speaker gate (45_speaker_timer_gate.md R202): the forwarded level read off its two sources. -/

namespace Sys2Proof.Machine

@[simp] theorem State.speakerLevel_eq_true_iff (s : State) :
    s.speakerLevel = true ↔ s.spkrData = true ∧ s.pitOut2 = true := by
  rw [State.speakerLevel, Bool.and_eq_true]

/-- Settles O42, by the reading of the speaker level as the conjunction of its two sources. -/
theorem speakerLevelIsDataAndTimerOutput : Obligations.SpeakerLevelIsDataAndTimerOutput :=
  State.speakerLevel_eq_true_iff

end Sys2Proof.Machine
end

section
/-! The decoder and the encoder agree (30_encoding.md R80 to R87): the round trip of every operation, and the operand ranges
of whatever decodes. -/

namespace Sys2Proof

/-! ## From the operation to its presentation and back -/

open Laws in
/-- One round trip per operation, collected over the operation type. -/
theorem decode_encode (i : Instr) (h : i.wf = true) : decode (encode i) = .ok i := by
  cases i with
  | iorDma1 p => exact RoundTrip.iorDma1 p h
  | iowDma1 p d => exact RoundTrip.iowDma1 p d h
  | iorPic1 p => exact RoundTrip.iorPic1 p h
  | iowPic1 p d => exact RoundTrip.iowPic1 p d h
  | iorPit p => exact RoundTrip.iorPit p h
  | iowPit p d => exact RoundTrip.iowPit p d h
  | iorKbdData => exact RoundTrip.iorKbdData h
  | iowKbdData d => exact RoundTrip.iowKbdData d h
  | iorPortb => exact RoundTrip.iorPortb h
  | iowPortb d => exact RoundTrip.iowPortb d h
  | iorKbdStatus => exact RoundTrip.iorKbdStatus h
  | iowKbdCmd d => exact RoundTrip.iowKbdCmd d h
  | iorRtc p => exact RoundTrip.iorRtc p h
  | iowRtc0 d => exact RoundTrip.iowRtc0 d h
  | iowRtc p d => exact RoundTrip.iowRtc p d h
  | iorPageSel p => exact RoundTrip.iorPageSel p h
  | iowPageSel p d => exact RoundTrip.iowPageSel p d h
  | iorPageGen p => exact RoundTrip.iorPageGen p h
  | iowPageGen p d => exact RoundTrip.iowPageGen p d h
  | iorPic2 p => exact RoundTrip.iorPic2 p h
  | iowPic2 p d => exact RoundTrip.iowPic2 p d h
  | iorDma2 p => exact RoundTrip.iorDma2 p h
  | iowDma2 p d => exact RoundTrip.iowDma2 p d h
  | iorUnmapped p => exact RoundTrip.iorUnmapped p h
  | iowUnmapped p d => exact RoundTrip.iowUnmapped p d h
  | iorNoclaim p => exact RoundTrip.iorNoclaim p h
  | iowNoclaim p d => exact RoundTrip.iowNoclaim p d h
  | ior16 p => exact RoundTrip.ior16 p h
  | iow16 p w => exact RoundTrip.iow16 p w h
  | dmard8 a => exact RoundTrip.dmard8 a h
  | dmawr8 a d => exact RoundTrip.dmawr8 a d h
  | dmard16 a => exact RoundTrip.dmard16 a h
  | dmawr16 a d => exact RoundTrip.dmawr16 a d h
  | hrq1 l => exact RoundTrip.hrq1 l h
  | hrq2 l => exact RoundTrip.hrq2 l h
  | dack c l => exact RoundTrip.dack c l h
  | dack4 l => exact RoundTrip.dack4 l h
  | eop1 l => exact RoundTrip.eop1 l h
  | eop2 l => exact RoundTrip.eop2 l h
  | dior8 c => exact RoundTrip.dior8 c h
  | diow8 c d => exact RoundTrip.diow8 c d h
  | dior16 j => exact RoundTrip.dior16 j h
  | diow16 j d => exact RoundTrip.diow16 j d h
  | drq n l => exact RoundTrip.drq n l h
  | int2 l => exact RoundTrip.int2 l h
  | int1 l => exact RoundTrip.int1 l h
  | slaveack n => exact RoundTrip.slaveack n h
  | irq n l => exact RoundTrip.irq n l h
  | obirq src l => exact RoundTrip.obirq src l h
  | out2 l => exact RoundTrip.out2 l h
  | start => exact RoundTrip.start h
  | a20mask l => exact RoundTrip.a20mask l h
  | stop => exact RoundTrip.stop h
  | reset => exact RoundTrip.reset h

/-- Settles O1: the model's round trips, one per operation. -/
theorem decodeOfEncodeIsTheOperation : Obligations.DecodeOfEncodeIsTheOperation := decode_encode

/-! ## What a field or a format can have answered -/

theorem of_bind_eq_ok {α β : Type} {x : Except DecodeError α} {f : α → Except DecodeError β} {r : β}
    (h : (x >>= f) = .ok r) : ∃ a, x = .ok a ∧ f a = .ok r := by
  cases x with
  | error e => cases h
  | ok a => exact ⟨a, rfl, h⟩

/-- The last line of every format: an operand field is read and its value is used. -/
theorem of_map_eq_ok {α : Type} {x : Except DecodeError α} {k : α → Instr} {i : Instr}
    (h : (x >>= fun a => pure (k a)) = .ok i) : ∃ a, i = k a := by
  obtain ⟨a, -, hk⟩ := of_bind_eq_ok h
  cases hk
  exact ⟨a, rfl⟩

theorem of_lineFormat {k : Bool → Instr} {addr data : Word} {i : Instr} (h : lineFormat k addr data = .ok i) :
    ∃ l, i = k l := by
  obtain ⟨-, -, h⟩ := of_bind_eq_ok h
  exact of_map_eq_ok h

theorem of_transferReadFormat {k : Word → Instr} {addr data : Word} {i : Instr}
    (h : transferReadFormat k addr data = .ok i) : i = k addr := by
  obtain ⟨-, -, h⟩ := of_bind_eq_ok h
  cases h
  rfl

theorem of_transferWriteFormat {k : Word → Byte → Instr} {addr data : Word} {i : Instr}
    (h : transferWriteFormat k addr data = .ok i) : ∃ d, i = k addr d :=
  of_map_eq_ok h

theorem of_peripheralReadFormat {k : Fin 4 → Instr} {addr data : Word} {i : Instr}
    (h : peripheralReadFormat k addr data = .ok i) : ∃ c, i = k c := by
  obtain ⟨-, -, h⟩ := of_bind_eq_ok h
  exact of_map_eq_ok h

theorem of_peripheralWriteFormat {k : Fin 4 → Byte → Instr} {addr data : Word} {i : Instr}
    (h : peripheralWriteFormat k addr data = .ok i) : ∃ c d, i = k c d := by
  obtain ⟨c, -, h⟩ := of_bind_eq_ok h
  exact ⟨c, of_map_eq_ok h⟩

theorem of_nullFormat {j i : Instr} {addr data : Word} (h : nullFormat j addr data = .ok i) : i = j := by
  obtain ⟨-, -, h⟩ := of_bind_eq_ok h
  obtain ⟨-, -, h⟩ := of_bind_eq_ok h
  cases h
  rfl

/-! ## Whatever decodes is well formed -/

/-- A line event has every level. -/
theorem lineFormat_wf {k : Bool → Instr} {addr data : Word} {i : Instr} (h : lineFormat k addr data = .ok i)
    (hk : ∀ l, (k l).wf = true) : i.wf = true := by
  obtain ⟨l, rfl⟩ := of_lineFormat h
  exact hk l

/-- Channel 4 on the acknowledge lines is the cascade link, an operation of its own (30_encoding.md R89). -/
theorem decodeEvent_dack_wf {addr data : Word} {i : Instr} (h : decodeEvent .dack addr data = .ok i) :
    i.wf = true := by
  obtain ⟨c, -, h⟩ := of_bind_eq_ok h
  obtain ⟨l, -, h⟩ := of_bind_eq_ok h
  cases h
  split
  next => rfl
  next hc => exact decide_eq_true hc

/-- Line 4 of the request lines is no operation (R80). -/
theorem decodeEvent_drq_wf {addr data : Word} {i : Instr} (h : decodeEvent .drq addr data = .ok i) :
    i.wf = true := by
  obtain ⟨n, -, h⟩ := of_bind_eq_ok h
  obtain ⟨l, -, h⟩ := of_bind_eq_ok h
  split at h
  next => cases h
  next hn => cases h; exact decide_eq_true hn

/-- A bus line is numbered by the 16 bits of its lane. -/
theorem decodeEvent_irq_wf {addr data : Word} {i : Instr} (h : decodeEvent .irq addr data = .ok i) :
    i.wf = true := by
  obtain ⟨l, rfl⟩ := of_map_eq_ok h
  exact decide_eq_true addr.isLt

theorem decodeEvent_wf {e : EventName} {addr data : Word} {i : Instr} (h : decodeEvent e addr data = .ok i) :
    i.wf = true := by
  cases e
  case dack => exact decodeEvent_dack_wf h
  case drq => exact decodeEvent_drq_wf h
  case irq => exact decodeEvent_irq_wf h
  case hrq1 | hrq2 | dack4 | eop1 | eop2 | int2 | int1 | out2 | a20mask => exact lineFormat_wf h fun _ => rfl
  case dmard8 | dmard16 => rw [of_transferReadFormat h]; rfl
  case dmawr8 | dmawr16 => obtain ⟨d, rfl⟩ := of_transferWriteFormat h; rfl
  case dior8 | dior16 => obtain ⟨c, rfl⟩ := of_peripheralReadFormat h; rfl
  case diow8 | diow16 => obtain ⟨c, d, rfl⟩ := of_peripheralWriteFormat h; rfl
  case start | stop | reset => rw [of_nullFormat h]; rfl
  case slaveack =>
    obtain ⟨-, -, h⟩ := of_bind_eq_ok h
    obtain ⟨n, rfl⟩ := of_map_eq_ok h
    rfl
  case obirq =>
    obtain ⟨src, -, h⟩ := of_bind_eq_ok h
    obtain ⟨l, rfl⟩ := of_map_eq_ok h
    rfl

theorem decode_wf {f : Frame} {i : Instr} (h : decode f = .ok i) : i.wf = true := by
  obtain ⟨sel, addr, data⟩ := f
  rcases sel with ⟨_ | _, _ | _⟩ | e | _
  case port.read.byte =>
    obtain ⟨-, -, h⟩ := of_bind_eq_ok h
    cases h
    exact decodeRead_wf addr
  case port.read.word =>
    obtain ⟨-, -, h⟩ := of_bind_eq_ok h
    cases h
    rfl
  case port.write.byte =>
    obtain ⟨d, rfl⟩ := of_map_eq_ok h
    exact decodeWrite_wf addr d
  case port.write.word => cases h; rfl
  case event => exact decodeEvent_wf h
  case unassigned => cases h

/-- Settles O2: by the selector of the frame, the byte accesses by the decoder's own ladder and the events by format. -/
theorem decodedOperationsAreWellFormed : Obligations.DecodedOperationsAreWellFormed := fun _ _ => decode_wf

/-! ## The port map (R87), from the round trips -/

theorem Port.unbound_of_range {p : Port}
    (h : p.toNat = 0x62 ∨ p.toNat = 0x63 ∨ (0x65 ≤ p.toNat ∧ p.toNat ≤ 0x6F) ∨
      (0xC1 ≤ p.toNat ∧ p.toNat ≤ 0xDF ∧ p.toNat % 2 = 1)) : p.unbound = true := by
  simp only [Port.unbound, Bool.or_eq_true, Bool.and_eq_true, Port.within_iff, decide_eq_true_eq]
  omega

theorem Port.within_of_le {p : Port} {lo hi : Nat} (hlo : lo ≤ p.toNat) (hhi : p.toNat ≤ hi) : p.within lo hi = true :=
  Port.within_iff.2 ⟨hlo, hhi⟩

theorem Port.pageSelect_wf {p : Port} (hlo : 0x80 ≤ p.toNat) (hhi : p.toNat ≤ 0x9F) (hk : p.toNat % 8 ∈ [1, 2, 3, 7]) :
    (p.within 0x80 0x9F && p.selectsPage) = true :=
  Bool.and_eq_true_iff.2 ⟨Port.within_of_le hlo hhi, decide_eq_true hk⟩

theorem Port.pageGeneric_wf {p : Port} (hlo : 0x80 ≤ p.toNat) (hhi : p.toNat ≤ 0x9F) (hk : p.toNat % 8 ∈ [0, 4, 5, 6]) :
    (p.within 0x80 0x9F && !p.selectsPage) = true := by
  have hno : p.toNat % 8 ∉ [1, 2, 3, 7] := by
    simp only [List.mem_cons, List.not_mem_nil, or_false] at hk ⊢
    omega
  exact Bool.and_eq_true_iff.2 ⟨Port.within_of_le hlo hhi, by rw [Port.selectsPage, decide_eq_false hno]; rfl⟩

theorem Port.secondaryDma_wf {p : Port} (hlo : 0xC0 ≤ p.toNat) (hhi : p.toNat ≤ 0xDF) (heven : p.toNat % 2 = 0) :
    (p.within 0xC0 0xDF && decide (p.toNat % 2 = 0)) = true :=
  Bool.and_eq_true_iff.2 ⟨Port.within_of_le hlo hhi, decide_eq_true heven⟩

/-- Settles O3: an operation of a range is presented as an access of its port, so its round trip says what the port decodes
to. -/
theorem portMapDecodesByRange : Obligations.PortMapDecodesByRange := by
  intro p d w
  have atPort {n : Nat} (h : p.toNat = n) (hn : n < 2 ^ 16) : p = BitVec.ofNat 16 n :=
    BitVec.eq_of_toNat_eq (by rw [h, BitVec.toNat_ofNat, Nat.mod_eq_of_lt hn])
  refine ⟨decode_encode (.ior16 p) rfl, decode_encode (.iow16 p w) rfl, ?dma1, ?pic1, ?pit, ?kbdData, ?portb, ?kbdControl,
    ?rtcRead, ?rtcSelect, ?rtcWrite, ?pageSel, ?pageGen, ?pic2, ?dma2, ?unbound, ?noclaim⟩
  case dma1 =>
    intro hhi
    have hwf := Port.within_of_le (Nat.zero_le p.toNat) hhi
    exact ⟨decode_encode (.iorDma1 p) hwf, decode_encode (.iowDma1 p d) hwf⟩
  case pic1 =>
    intro hlo hhi
    have hwf := Port.within_of_le hlo hhi
    exact ⟨decode_encode (.iorPic1 p) hwf, decode_encode (.iowPic1 p d) hwf⟩
  case pit =>
    intro hlo hhi
    have hwf := Port.within_of_le hlo hhi
    exact ⟨decode_encode (.iorPit p) hwf, decode_encode (.iowPit p d) hwf⟩
  case kbdData =>
    intro h
    rw [atPort h (by decide)]
    exact ⟨decode_encode .iorKbdData rfl, decode_encode (.iowKbdData d) rfl⟩
  case portb =>
    intro h
    rw [atPort h (by decide)]
    exact ⟨decode_encode .iorPortb rfl, decode_encode (.iowPortb d) rfl⟩
  case kbdControl =>
    intro h
    rw [atPort h (by decide)]
    exact ⟨decode_encode .iorKbdStatus rfl, decode_encode (.iowKbdCmd d) rfl⟩
  case rtcRead => exact fun hlo hhi => decode_encode (.iorRtc p) (Port.within_of_le hlo hhi)
  case rtcSelect =>
    intro h
    rw [atPort h (by decide)]
    exact decode_encode (.iowRtc0 d) rfl
  case rtcWrite => exact fun hlo hhi => decode_encode (.iowRtc p d) (Port.within_of_le hlo hhi)
  case pageSel =>
    intro hlo hhi hk
    have hwf := Port.pageSelect_wf hlo hhi hk
    exact ⟨decode_encode (.iorPageSel p) hwf, decode_encode (.iowPageSel p d) hwf⟩
  case pageGen =>
    intro hlo hhi hk
    have hwf := Port.pageGeneric_wf hlo hhi hk
    exact ⟨decode_encode (.iorPageGen p) hwf, decode_encode (.iowPageGen p d) hwf⟩
  case pic2 =>
    intro hlo hhi
    have hwf := Port.within_of_le hlo hhi
    exact ⟨decode_encode (.iorPic2 p) hwf, decode_encode (.iowPic2 p d) hwf⟩
  case dma2 =>
    intro hlo hhi heven
    have hwf := Port.secondaryDma_wf hlo hhi heven
    exact ⟨decode_encode (.iorDma2 p) hwf, decode_encode (.iowDma2 p d) hwf⟩
  case unbound =>
    intro h
    have hwf := Port.unbound_of_range h
    exact ⟨decode_encode (.iorUnmapped p) hwf, decode_encode (.iowUnmapped p d) hwf⟩
  case noclaim =>
    intro hlo
    have hwf := Port.within_of_le hlo (Nat.le_of_lt_succ p.isLt)
    exact ⟨decode_encode (.iorNoclaim p) hwf, decode_encode (.iowNoclaim p d) hwf⟩

/-- Settles O4: the test vectors, evaluated. -/
theorem writtenOutWordsDecode : Obligations.WrittenOutWordsDecode := by
  unfold Obligations.WrittenOutWordsDecode
  decide

end Sys2Proof
end

section
/-! What an operation can do, said once. It writes the fields its rule names (`Instr.Writes`), and beyond that it only adds
actions, takes answers and returns a value (`State.Quiet`); a word write is two byte writes (20_memory.md R56). -/

namespace Sys2Proof.Machine

/-! ## Everything outside the fields of `S`, memory and the marks -/

/-- `t` follows `s` with actions appended that all meet `P`; apart from them only answers taken, their count and the return
value may differ. -/
structure State.Quiet (P : Action → Prop) (s t : State) : Prop where
  records : s.Records P t
  rest : { t with actions := s.actions, answers := s.answers, platformReads := s.platformReads, draws := s.draws,
                  ret := s.ret } = s

namespace State.Quiet

variable {P : Action → Prop} {s t u : State}

theorem of_no_action (hacts : t.actions = s.actions)
    (hrest : { t with actions := s.actions, answers := s.answers, platformReads := s.platformReads, draws := s.draws,
                      ret := s.ret } = s) : s.Quiet P t :=
  ⟨State.records_of_no_action hacts, hrest⟩

theorem of_one_action {a : Action} (hacts : t.actions = s.actions ++ [a])
    (hrest : { t with actions := s.actions, answers := s.answers, platformReads := s.platformReads, draws := s.draws,
                      ret := s.ret } = s) (ha : P a) : s.Quiet P t :=
  ⟨State.records_of_one_action hacts ha, hrest⟩

theorem refl (s : State) : s.Quiet P s := of_no_action rfl rfl

theorem trans (hst : s.Quiet P t) (htu : t.Quiet P u) : s.Quiet P u where
  records := hst.records.trans htu.records
  rest :=
    (congrArg (fun v : State => { v with actions := s.actions, answers := s.answers, platformReads := s.platformReads,
                                         draws := s.draws, ret := s.ret }) htu.rest).trans hst.rest

theorem withActions {acts : List Action} (hacts : ∀ a ∈ acts, P a) (s : State) : s.Quiet P (s.withActions acts) :=
  ⟨⟨acts, rfl, hacts⟩, rfl⟩

theorem emit {a : Action} (ha : P a) (s : State) : s.Quiet P (s.emit a) := of_one_action rfl rfl ha

theorem query {a : Action} (ha : P a) (s : State) : s.Quiet P (s.emit a).consume := of_one_action rfl rfl ha

theorem giveRet (r : Ret) (s : State) : s.Quiet P (s.giveRet r) := of_no_action rfl rfl

/-- A query whose answer is returned. -/
theorem returnedQuery {a : Action} (ha : P a) (r : Ret) (s : State) : s.Quiet P ((s.emit a).consume.giveRet r) :=
  (query ha s).trans (giveRet r _)

theorem block (h : s.Quiet P t) : t.block = s.block := (congrArg State.block h.rest :)
theorem mem (h : s.Quiet P t) : t.mem = s.mem := (congrArg State.mem h.rest :)
theorem board (h : s.Quiet P t) : t.board = s.board := (congrArg State.board h.rest :)
theorem a20Registered (h : s.Quiet P t) : t.a20Registered = s.a20Registered := (congrArg State.a20Registered h.rest :)
theorem stopped (h : s.Quiet P t) : t.stopped = s.stopped := (congrArg State.stopped h.rest :)
theorem inputs (h : s.Quiet P t) : t.inputs = s.inputs := (congrArg State.inputs h.rest :)

end State.Quiet

/-! ## The fields an operation writes -/

/-- `t` is `s` with the fields the operation writes (the "written by" column of 10_state.md R20), or `s` itself; actions,
answers and the return value are left out. -/
inductive Instr.Writes : Instr → State → State → Prop
  | nothing (i : Instr) (s : State) : Writes i s s
  | pageRegister (p : Port) (d : Byte) (s : State) : Writes (.iowPageSel p d) s (s.writeCell (pageCell p) d)
  | readback (p : Port) (d : Byte) (s : State) : Writes (.iowPageGen p d) s (s.writeCell (.generic (genIndex p)) d)
  | nmiFlag (d : Byte) (s : State) : Writes (.iowRtc0 d) s { s with nmiEnabled := d.getLsbD 7 }
  | portb (d : Byte) (s : State) :
      Writes (.iowPortb d) s { s with portb := d, spkrData := d.getLsbD 1, channelCheck := d.getLsbD 3 }
  | latchFromMemory (a : Word) (v : Byte) (s : State) : Writes (.dmard16 a) s { s with hiLatch := v }
  | latchFromBus (j : Fin 4) (v : Byte) (s : State) : Writes (.dior16 j) s { s with hiLatch := v }
  | memoryByte (a : Word) (d : Byte) (x : PhysAddr) (s : State) : Writes (.dmawr8 a d) s (s.storeByte x d)
  | memoryWord (a : Word) (d : Byte) (x : PhysAddr) (w : Word) (s : State) : Writes (.dmawr16 a d) s (s.storeWord x w)
  | granted (c : Fin 8) (l : Bool) (s : State) : Writes (.dack c l) s { s with owner := .owned c }
  | released (c : Fin 8) (l : Bool) (s : State) : Writes (.dack c l) s { s with owner := .idle }
  | eop1 (l : Bool) (s : State) : Writes (.eop1 l) s { s with eop1 := l }
  | eop2 (l : Bool) (s : State) : Writes (.eop2 l) s { s with eop2 := l }
  | out2 (l : Bool) (s : State) : Writes (.out2 l) s { s with pitOut2 := l }
  | secondHalf (p : Port) (h : WordHalf) (s : State) : Writes (.ior16 p) s { s with half := some h }
  | start (s : State) : Writes .start s { s with a20Registered := s.a20Registered || s.board.cpuHasA20Gate }
  | stop (s : State) : Writes .stop s { s with stopped := true }
  | reset (s : State) :
      Writes .reset s { s with spkrData := false, pitOut2 := true, owner := .idle, eop1 := false, eop2 := false }

/-- The forwarded levels have their own operations (44_nmi_diag_gate.md R194, 45_speaker_timer_gate.md R203); of the other
actions nothing is said. -/
def Instr.MayAdd (i : Instr) : Action → Prop
  | .busNmiState _ => ∃ d, i = .iowRtc0 d ∨ i = .iowPortb d
  | .spkLevel _ => (∃ d, i = .iowPortb d) ∨ ∃ l, i = .out2 l
  | _ => True

/-- What `exec` may answer: the operation's fields are written, and the rest is quiet. -/
def Instr.Effect (i : Instr) (s t : State) : Prop := ∃ u, Instr.Writes i s u ∧ u.Quiet (Instr.MayAdd i) t

theorem Instr.Effect.of_quiet {i : Instr} {s t : State} (h : s.Quiet (Instr.MayAdd i) t) :
    Instr.Effect i s t :=
  ⟨s, .nothing i s, h⟩

/-! ## The shared operations -/

/-- A byte read writes no field, and no query forwards a level. -/
theorem portIn_quiet (i : Instr) (p : Port) (s : State) : s.Quiet (Instr.MayAdd i) (portIn p s).2 := by
  unfold portIn
  cases portClass p
  case unmapped | pageSel | pageGen | noclaim => exact .of_no_action rfl rfl
  case dma1 | pic1 | pit | kbdData | portb | kbdControl | rtcSelect | rtc | pic2 | dma2 =>
    exact .of_one_action rfl rfl trivial

theorem State.forwardEopIf_quiet (i : Instr) (flag : Bool) (c : Fin 8) (level : Bool) (s : State) :
    s.Quiet (Instr.MayAdd i) (s.forwardEopIf flag c level) := by
  cases flag
  case false => exact .refl s
  case true => exact .of_one_action rfl rfl trivial

theorem State.forwardEopToOwner_quiet (i : Instr) (level : Bool) (s : State) :
    s.Quiet (Instr.MayAdd i) (s.forwardEopToOwner level) := by
  cases howner : s.owner with
  | idle => rw [State.forwardEopToOwner_idle level howner]; exact .refl s
  | owned c => rw [State.forwardEopToOwner_owned level howner]; exact .of_one_action rfl rfl trivial

/-! ## The operations with branches -/

theorem execDack_effect {c : Fin 8} {l : Bool} {s t : State} (h : execDack c l s = .next t) :
    Instr.Effect (.dack c l) s t := by
  simp only [execDack] at h
  split at h <;> cases h
  next => exact ⟨_, .granted c l s, State.forwardEopIf_quiet _ (s.eopFlag c) c true { s with owner := .owned c }⟩
  next =>
    by_cases howner : s.owner = .owned c
    case pos =>
      rw [State.release, if_pos howner]
      exact ⟨_, .released c l s, State.forwardEopIf_quiet _ (s.eopFlag c) c false { s with owner := .idle }⟩
    case neg => rw [State.release_other howner]; exact .of_quiet (.refl s)

theorem execSlaveack_effect {n : Fin 8} {s t : State} (h : execSlaveack n s = .next t) :
    Instr.Effect (.slaveack n) s t := by
  simp only [execSlaveack] at h
  split at h <;> cases h
  next => exact .of_quiet (.returnedQuery trivial _ s)
  next => exact .of_quiet (.giveRet _ s)

theorem execA20mask_effect {l : Bool} {s t : State} (h : execA20mask l s = .next t) : Instr.Effect (.a20mask l) s t := by
  simp only [execA20mask] at h
  split at h <;> cases h
  exact .of_quiet (.giveRet _ s)

theorem execDmard8_effect {a : Word} {s t : State} (h : execDmard8 a s = .next t) : Instr.Effect (.dmard8 a) s t := by
  simp only [execDmard8] at h
  split at h
  next => cases h; exact .of_quiet (.giveRet _ s)
  next =>
    split at h <;> cases h
    exact .of_quiet (.returnedQuery trivial _ s)

theorem execDmawr8_effect {a : Word} {d : Byte} {s t : State} (h : execDmawr8 a d s = .next t) :
    Instr.Effect (.dmawr8 a d) s t := by
  simp only [execDmawr8] at h
  split at h
  next => cases h; exact .of_quiet (.refl s)
  next =>
    split at h <;> cases h
    exact ⟨_, .memoryByte a d _ s, .of_one_action rfl rfl trivial⟩

theorem execDmard16_effect {a : Word} {s t : State} (h : execDmard16 a s = .next t) : Instr.Effect (.dmard16 a) s t := by
  simp only [execDmard16] at h
  split at h
  next => cases h; exact .of_quiet (.giveRet _ s)
  next =>
    split at h <;> cases h
    exact ⟨_, .latchFromMemory a (highByte (s.memRead16 (s.wordTransferAddr _ a)).1) s, .returnedQuery trivial _ _⟩

theorem execDmawr16_effect {a : Word} {d : Byte} {s t : State} (h : execDmawr16 a d s = .next t) :
    Instr.Effect (.dmawr16 a d) s t := by
  simp only [execDmawr16] at h
  split at h
  next => cases h; exact .of_quiet (.refl s)
  next =>
    split at h <;> cases h
    exact ⟨_, .memoryWord a d _ _ s, .of_one_action rfl rfl trivial⟩

/-- A word read is quiet but for the second half it may leave waiting. -/
theorem execIor16_effect {p : Port} {s t : State} (h : execIor16 p s = .next t) : Instr.Effect (.ior16 p) s t := by
  cases h
  have hfirst := portIn_quiet (.ior16 p) p s
  rcases State.afterFirstHalf_cases (.read (nextPort p) (portIn p s).1) (portIn p s).2 with hwait | hdone
  case inl =>
    rw [hwait]
    exact ⟨_, .secondHalf p _ s, hfirst.records,
      congrArg (fun v : State => { v with half := some (.read (nextPort p) (portIn p s).1) }) hfirst.rest⟩
  case inr =>
    rw [hdone]
    exact .of_quiet (hfirst.trans ((portIn_quiet _ (nextPort p) _).trans (.giveRet _ _)))

/-! ## Every operation -/

/-- Everything an operation that answers can have done; a word write is taken apart by `exec_iow16` below. -/
theorem exec_effect {i : Instr} {s t : State} (hword : ∀ p w, i ≠ .iow16 p w) (h : exec i s = .next t) :
    Instr.Effect i s t := by
  cases i
  case iow16 p w => exact absurd rfl (hword p w)
  case ior16 => exact execIor16_effect h
  case dmard8 => exact execDmard8_effect h
  case dmawr8 => exact execDmawr8_effect h
  case dmard16 => exact execDmard16_effect h
  case dmawr16 => exact execDmawr16_effect h
  case dack => exact execDack_effect h
  case slaveack => exact execSlaveack_effect h
  case a20mask => exact execA20mask_effect h
  case irq => obtain ⟨dst, -, rfl⟩ := exec_irq_next h; exact .of_quiet (.emit trivial s)
  case drq => cases h; exact .of_quiet (.emit (by split <;> trivial) s)
  case hrq2 => cases h; exact .of_quiet ((State.Quiet.emit trivial s).trans (.emit trivial _))
  case eop1 l => cases h; exact ⟨_, .eop1 l s, State.forwardEopToOwner_quiet _ l { s with eop1 := l }⟩
  case eop2 l => cases h; exact ⟨_, .eop2 l s, State.forwardEopToOwner_quiet _ l { s with eop2 := l }⟩
  case dior16 j => cases h; exact ⟨_, .latchFromBus j (highByte s.answer) s, .returnedQuery trivial _ _⟩
  case out2 l => cases h; exact ⟨_, .out2 l s, .of_one_action rfl rfl (.inr ⟨l, rfl⟩)⟩
  case iowRtc0 d =>
    cases h
    rw [iowRtc0_eq]
    exact ⟨_, .nmiFlag d s, .withActions (by simp [Instr.MayAdd]) _⟩
  case iowPortb d =>
    cases h
    rw [iowPortb_eq]
    exact ⟨_, .portb d s, .withActions (by simp [Instr.MayAdd]) _⟩
  case iowPageSel p d => cases h; exact ⟨_, .pageRegister p d s, .refl _⟩
  case iowPageGen p d => cases h; exact ⟨_, .readback p d s, .refl _⟩
  case start => cases h; exact ⟨_, .start s, .refl _⟩
  case stop => cases h; exact ⟨_, .stop s, .refl _⟩
  case reset => cases h; exact ⟨_, .reset s, .refl _⟩
  case iowUnmapped | iowNoclaim => cases h; exact .of_quiet (.refl s)
  case iorPageSel | iorPageGen | iorUnmapped | iorNoclaim => cases h; exact .of_quiet (.of_no_action rfl rfl)
  case iorDma1 | iorPic1 | iorPit | iorKbdData | iorPortb | iorKbdStatus | iorRtc | iorPic2 | iorDma2 | dior8 =>
    cases h
    exact .of_quiet (.returnedQuery trivial _ s)
  case iowDma1 | iowPic1 | iowPit | iowKbdData | iowKbdCmd | iowRtc | iowPic2 | iowDma2 | hrq1 | dack4 | diow8 | diow16
      | int2 | int1 | obirq =>
    cases h
    exact .of_quiet (.emit trivial s)

/-! ## Word writes and second halves as byte accesses -/

/-- A word write is the byte write of the lower port, and then the other half waits or is the other byte write. -/
theorem exec_iow16 {p : Port} {w : Word} {s t : State} (h : exec (.iow16 p w) s = .next t) :
    ∃ u, exec (decodeWrite p (lowByte w)) s = .next u ∧
      (t = { u with half := some (.write (nextPort p) (highByte w)) } ∨
        exec (decodeWrite (nextPort p) (highByte w)) u = .next t) := by
  cases h
  refine ⟨_, exec_decodeWrite p (lowByte w) s, ?_⟩
  rcases State.afterFirstHalf_cases (.write (nextPort p) (highByte w)) (portOut p (lowByte w) s) with hwait | hdone
  case inl => exact .inl hwait
  case inr => rw [hdone]; exact .inr (exec_decodeWrite _ _ _)

/-- The byte access a second half makes. -/
def WordHalf.byteAccess : WordHalf → Instr
  | .read p _ => decodeRead p
  | .write p d => decodeWrite p d

theorem WordHalf.byteAccess_wf (h : WordHalf) : h.byteAccess.wf = true := by
  cases h with
  | read p lo => exact decodeRead_wf p
  | write p d => exact decodeWrite_wf p d

/-- A second half is its byte access, but for what is returned. -/
theorem State.secondHalf_eq (h : WordHalf) (s : State) :
    ∃ u r, exec h.byteAccess s = .next u ∧ s.secondHalf h = u.giveRet r := by
  cases h with
  | read p lo => exact ⟨_, _, exec_decodeRead p s, rfl⟩
  | write p d => exact ⟨_, (portOut p d s).ret, exec_decodeWrite p d s, rfl⟩

theorem decodeWrite_ne_iow16 (p q : Port) (d : Byte) (w : Word) : decodeWrite p d ≠ .iow16 q w := by
  unfold decodeWrite
  cases portClass p <;> nofun

/-- A transitive relation that every other operation of `Q` makes, and that a waiting second half does not disturb, holds
across a word write too. -/
theorem exec_of_byteWrites {R : State → State → Prop} {Q : Instr → Prop}
    (hsingle : ∀ {i s t}, Q i → (∀ p w, i ≠ .iow16 p w) → exec i s = .next t → R s t)
    (hhalf : ∀ s h, R s { s with half := some h }) (htrans : ∀ {s t u}, R s t → R t u → R s u)
    (hwrite : ∀ p d, Q (decodeWrite p d)) {i : Instr} {s t : State} (hi : Q i) (h : exec i s = .next t) : R s t := by
  have hbyte {p d s t} (h : exec (decodeWrite p d) s = .next t) : R s t :=
    hsingle (hwrite p d) (decodeWrite_ne_iow16 p · d ·) h
  by_cases hword : ∃ p w, i = .iow16 p w
  case pos =>
    obtain ⟨p, w, rfl⟩ := hword
    obtain ⟨u, hfirst, rfl | hsecond⟩ := exec_iow16 h
    · exact htrans (hbyte hfirst) (hhalf u _)
    · exact htrans (hbyte hfirst) (hbyte hsecond)
  case neg => exact hsingle hi (fun p w heq => hword ⟨p, w, heq⟩) h

end Sys2Proof.Machine
end

section
/-! The invariants every step keeps: `State.Inv` (10_state.md R34 (b), 20_memory.md R51, 43_irq_cascade.md R184 to R186,
46_lifecycle.md R210) and `State.PortbInSync` (10_state.md R34 (c)). -/

namespace Sys2Proof.Machine

/-! ## What a step keeps, in general -/

/-- A property of `S`, memory, the tables and the A20 registration, and of nothing else of a state. -/
def FieldProperty (P : State → Prop) : Prop :=
  ∀ s t : State, P s → t.block = s.block → t.mem = s.mem → t.board = s.board → t.a20Registered = s.a20Registered → P t

theorem Instr.Effect.keeps {P : State → Prop} (hP : FieldProperty P) {i : Instr} {s t : State}
    (hwrites : ∀ {u}, Instr.Writes i s u → P s → P u) (h : Instr.Effect i s t) (hs : P s) : P t := by
  obtain ⟨u, hw, hq⟩ := h
  exact hP u t (hwrites hw hs) hq.block hq.mem hq.board hq.a20Registered

/-- The induction over an operation, done once: it keeps what the writing of its own fields keeps. -/
theorem exec_keeps {P : State → Prop} (hP : FieldProperty P)
    (hwrites : ∀ {i : Instr} {s u : State}, i.wf = true → Instr.Writes i s u → P s → P u) {i : Instr} {s t : State}
    (hi : i.wf = true) (h : exec i s = .next t) (hs : P s) : P t :=
  exec_of_byteWrites (R := fun s t => P s → P t) (Q := fun i => i.wf = true)
    (fun hi hword h hs => (exec_effect hword h).keeps hP (hwrites hi) hs)
    (fun _ _ hs => hP _ _ hs rfl rfl rfl rfl) (fun hst htu hs => htu (hst hs)) decodeWrite_wf hi h hs

/-- The same for a step: what it runs, if anything, is a change of memory, a well-formed operation, or a byte access that
was still to come. -/
theorem step_keeps {P : State → Prop} (hP : FieldProperty P) (hstore : ∀ {s} a d, P s → P (s.storeByte a d))
    (hwrites : ∀ {i : Instr} {s u : State}, i.wf = true → Instr.Writes i s u → P s → P u) {s t : State} (hs : P s)
    (h : step s = .next t) : P t := by
  have hbegin (rest : List Input) : P (s.beginStep rest) := hP _ _ hs rfl rfl rfl rfl
  rcases step_cases h with rfl | ⟨a, d, rest, rfl⟩ | ⟨f, i, rest, hdecode, hexec⟩ | ⟨w, -, -, rfl⟩
  · exact hbegin []
  · exact hstore a d (hbegin rest)
  · exact exec_keeps hP hwrites (decode_wf hdecode) hexec (hbegin rest)
  · obtain ⟨u, r, hexec, hsecond⟩ := State.secondHalf_eq w ({ s with half := none }.beginStep s.inputs)
    have hu : P u := exec_keeps hP hwrites w.byteAccess_wf hexec (hP _ _ hs rfl rfl rfl rfl)
    rw [State.resumeWord, hsecond]
    exact hP _ _ hu rfl rfl rfl rfl

/-! ## The machine's invariant -/

theorem State.inv_fieldProperty : FieldProperty State.Inv := by
  intro s t hs hblock hmem hboard ha20
  have howner : t.owner = s.owner := congrArg Block.owner hblock
  exact ⟨howner ▸ hs.owner_ne_cascade, hmem ▸ hs.mem_wf, hboard ▸ hs.board_wf, by
    rw [ha20, hboard]; exact hs.a20_of_gate⟩

theorem State.Inv.storeByte {s : State} (a : PhysAddr) (d : Byte) (hs : s.Inv) : (s.storeByte a d).Inv :=
  { hs with mem_wf := State.storeByte_mem_wf a d hs.mem_wf }

@[simp] theorem State.writeCell_mem (c : PageCell) (d : Byte) (s : State) : (s.writeCell c d).mem = s.mem := by
  cases c <;> rfl

theorem State.Inv.writeCell {s : State} (c : PageCell) (d : Byte) (hs : s.Inv) : (s.writeCell c d).Inv := by
  cases c <;> exact { hs with }

/-- A grant never names the cascade channel, a store keeps memory canonical, and `START` registers only what the CPU
exposes; no other clause is touched. -/
theorem Instr.Writes.inv {i : Instr} {s u : State} (hi : i.wf = true) (hw : Instr.Writes i s u) (hs : s.Inv) : u.Inv := by
  cases hw
  case nothing => exact hs
  case pageRegister | readback => exact hs.writeCell _ _
  case memoryByte => exact hs.storeByte _ _
  case memoryWord => exact (hs.storeByte _ _).storeByte _ _
  case granted c l =>
    have hc : c ≠ 4 := of_decide_eq_true hi
    exact { hs with owner_ne_cascade := fun heq => hc (Owner.owned.inj heq) }
  case released | reset => exact { hs with owner_ne_cascade := nofun }
  case start =>
    refine { hs with a20_of_gate := fun hreg => ?_ }
    rcases Bool.or_eq_true_iff.1 hreg with h | h
    exacts [hs.a20_of_gate h, h]
  case nmiFlag | portb | latchFromMemory | latchFromBus | eop1 | eop2 | out2 | secondHalf | stop => exact { hs with }

/-- Settles O55: no field an operation writes breaks the invariant, and the rest of a step touches none of its fields. -/
theorem everyStepKeepsTheInvariant : Obligations.EveryStepKeepsTheInvariant := fun _ _ hs h =>
  step_keeps State.inv_fieldProperty State.Inv.storeByte Instr.Writes.inv hs h

/-- The board of the reset state meets the constraints, whichever board was chosen (log 6). -/
theorem Config.bootBoard_wf : Config.bootBoard.wf = true := by
  rw [Config.bootBoard]
  split
  next h => exact h
  next => decide

/-- Settles O56: memory lists nothing, and board and registration are chosen to fit. -/
theorem resetMeetsTheInvariant : Obligations.ResetMeetsTheInvariant where
  owner_ne_cascade := nofun
  mem_wf := State.reset_mem_wf
  board_wf := Config.bootBoard_wf
  a20_of_gate h := h

/-! ## The flags of port 0x61 -/

theorem State.portbInSync_fieldProperty : FieldProperty State.PortbInSync := by
  intro s t hs hblock _ _ _
  have hportb : t.portb = s.portb := congrArg Block.portb hblock
  have hcheck : t.channelCheck = s.channelCheck := congrArg Block.channelCheck hblock
  have hspkr : t.spkrData = s.spkrData := congrArg Block.spkrData hblock
  exact ⟨by rw [hportb, hcheck]; exact hs.channelCheck_eq, by rw [hportb, hspkr]; exact hs.spkrData_imp⟩

/-- Only the port's write changes the byte, and it changes the flags with it; a reset only clears the speaker data. -/
theorem Instr.Writes.portbInSync {i : Instr} {s u : State} (hw : Instr.Writes i s u) (hs : s.PortbInSync) :
    u.PortbInSync := by
  cases hw
  case nothing => exact hs
  case portb d => exact ⟨rfl, id⟩
  case reset => exact { hs with spkrData_imp := nofun }
  case pageRegister p d => cases pageCell p <;> exact { hs with }
  case readback | nmiFlag | latchFromMemory | latchFromBus | memoryByte | memoryWord | granted | released | eop1 | eop2
      | out2 | secondHalf | start | stop =>
    exact { hs with }

/-- Settles O57, like O55, for the two flags and the byte they come from. -/
theorem stepKeepsPortbFlagsInSync : Obligations.StepKeepsPortbFlagsInSync := fun _ _ hs h =>
  step_keeps State.portbInSync_fieldProperty (fun _ _ hs => { hs with }) (fun _ => Instr.Writes.portbInSync) hs h

end Sys2Proof.Machine
end

section
/-! What an operation leaves unchanged, field by field: the "written by" column of 10_state.md R20, memory
(30_encoding.md R94), the pending inputs, and the order of the actions (00_scope.md R6, R8). -/

namespace Sys2Proof.Machine

/-! ## Memory, inputs and actions, word writes included -/

theorem decodeWrite_ne_memoryWrite (p : Port) (d : Byte) :
    (∀ a e, decodeWrite p d ≠ .dmawr8 a e) ∧ ∀ a e, decodeWrite p d ≠ .dmawr16 a e := by
  unfold decodeWrite
  cases portClass p <;> exact ⟨nofun, nofun⟩

theorem Instr.Writes.mem_eq {i : Instr} {s u : State} (hbyte : ∀ a d, i ≠ .dmawr8 a d) (hword : ∀ a d, i ≠ .dmawr16 a d)
    (hw : Instr.Writes i s u) : u.mem = s.mem := by
  cases hw
  case memoryByte a d x => exact absurd rfl (hbyte a d)
  case memoryWord a d x w => exact absurd rfl (hword a d)
  case pageRegister | readback => exact State.writeCell_mem _ _ s
  all_goals rfl

theorem exec_mem_eq {i : Instr} {s t : State} (hbyte : ∀ a d, i ≠ .dmawr8 a d) (hword : ∀ a d, i ≠ .dmawr16 a d)
    (h : exec i s = .next t) : t.mem = s.mem := by
  refine exec_of_byteWrites (R := fun s t => t.mem = s.mem)
    (Q := fun i => (∀ a d, i ≠ .dmawr8 a d) ∧ ∀ a d, i ≠ .dmawr16 a d) ?_ (fun _ _ => rfl)
    (fun hst htu => htu.trans hst) decodeWrite_ne_memoryWrite ⟨hbyte, hword⟩ h
  rintro i s t ⟨hbyte, hword⟩ hnot h
  obtain ⟨u, hw, hq⟩ := exec_effect hnot h
  exact hq.mem.trans (hw.mem_eq hbyte hword)

/-- Settles O59: with the list of written bytes unchanged, every byte reads as before. -/
theorem onlyMemoryWritesTouchMemory : Obligations.OnlyMemoryWritesTouchMemory := by
  intro i s t hbyte hword h x
  rw [State.byteAt, State.byteAt, exec_mem_eq hbyte hword h]

theorem Instr.Writes.actions_eq {i : Instr} {s u : State} (hw : Instr.Writes i s u) : u.actions = s.actions := by
  cases hw
  case pageRegister | readback => exact State.writeCell_actions _ _ s
  all_goals rfl

theorem Instr.Writes.inputs_eq {i : Instr} {s u : State} (hw : Instr.Writes i s u) : u.inputs = s.inputs := by
  cases hw
  case pageRegister p d => cases pageCell p <;> rfl
  all_goals rfl

theorem Instr.Effect.records {i : Instr} {s t : State} (h : Instr.Effect i s t) : s.Records (Instr.MayAdd i) t := by
  obtain ⟨u, hw, hq⟩ := h
  exact (State.records_of_no_action hw.actions_eq).trans hq.records

/-- Settles O60: writing fields adds no action, and the rest of an operation only appends. -/
theorem operationsOnlyAppendActions : Obligations.OperationsOnlyAppendActions := by
  intro i s t h
  refine exec_of_byteWrites (R := fun s t => s.actions <+: t.actions ∧ t.inputs = s.inputs) (Q := fun _ => True)
    ?_ (fun s _ => ⟨List.prefix_rfl, rfl⟩) ?_ (fun _ _ => trivial) trivial h
  · intro i s t _ hnot h
    have heffect := exec_effect hnot h
    obtain ⟨acts, hacts, -⟩ := heffect.records
    obtain ⟨u, hw, hq⟩ := heffect
    exact ⟨⟨acts, hacts.symm⟩, hq.inputs.trans hw.inputs_eq⟩
  · rintro s t u ⟨hst, hin⟩ ⟨htu, hin'⟩
    exact ⟨hst.trans htu, hin'.trans hin⟩

/-! ## Each field and its writers -/

/-- A quiet part leaves every field of `S`, memory, the marks and the inputs as they stand. -/
theorem State.Quiet.exists_eq {P : Action → Prop} {s t : State} (h : s.Quiet P t) :
    ∃ acts answers reads draws ret,
      t = { s with actions := acts, answers := answers, platformReads := reads, draws := draws, ret := ret } :=
  ⟨t.actions, t.answers, t.platformReads, t.draws, t.ret,
    (congrArg (fun v : State => { v with actions := t.actions, answers := t.answers, platformReads := t.platformReads,
                                         draws := t.draws, ret := t.ret }) h.rest :)⟩

/-- An offset of the four reaches a page register, never the readback store (41_dma_page_xlat.md R139). -/
theorem pageCell_ne_generic {p : Port} (hk : p.selectsPage = true) (g : Fin 16) : pageCell p ≠ .generic g := by
  have hoffset : pageOffset p ∈ [1#3, 2#3, 3#3, 7#3] := (Port.pageOffset_mem_iff p).2 (of_decide_eq_true hk)
  have hsome : ∀ k ∈ [1#3, 2#3, 3#3, 7#3], pageSel k ≠ none := by decide
  rw [pageCell]
  split
  next => split <;> nofun
  next hnone => exact absurd hnone (hsome _ hoffset)

/-- Settles O58, constructor by constructor of what an operation may write. -/
theorem eachFieldHasItsOwnWriters : Obligations.EachFieldHasItsOwnWriters := by
  intro i s t hi hnot h
  obtain ⟨u, hw, hq⟩ := exec_effect hnot h
  obtain ⟨acts, answers, reads, draws, ret, rfl⟩ := hq.exists_eq
  cases hw
  case nothing => simp
  case pageRegister p d =>
    obtain ⟨-, hk⟩ := Bool.and_eq_true_iff.1 hi
    cases hcell : pageCell p with
    | generic g => exact absurd hcell (pageCell_ne_generic hk g)
    | byteSet | wordSet => simp [State.writeCell]
  case readback => simp [State.writeCell]
  case memoryByte | memoryWord => simp [State.storeWord]
  case nmiFlag | portb | latchFromMemory | latchFromBus | granted | released | eop1 | eop2 | out2 | secondHalf | start
      | stop | reset =>
    simp

end Sys2Proof.Machine
end

section
/-! The forwarded levels (44_nmi_diag_gate.md R194, 45_speaker_timer_gate.md R203): which operations forward them, and with
which value. -/

namespace Sys2Proof.Machine

theorem exec_iowRtc0 (d : Byte) (s : State) :
    exec (.iowRtc0 d) s = .next (({ s with nmiEnabled := d.getLsbD 7 }).withActions
      [.rtcWrite 0 d, .busNmiState (!d.getLsbD 7 && !s.channelCheck)]) :=
  congrArg Host.Outcome.next (iowRtc0_eq d s)

theorem exec_iowPortb (d : Byte) (s : State) :
    exec (.iowPortb d) s = .next
      (({ s with portb := d, spkrData := d.getLsbD 1, channelCheck := d.getLsbD 3 }).withActions
        [.pitGate2 (d.getLsbD 0), .spkLevel (d.getLsbD 1 && s.pitOut2), .busNmiState (!s.nmiEnabled && !d.getLsbD 3)]) :=
  congrArg Host.Outcome.next (iowPortb_eq d s)

theorem exec_out2 (l : Bool) (s : State) :
    exec (.out2 l) s = .next (({ s with pitOut2 := l }).withActions [.spkLevel (s.spkrData && l)]) := rfl

/-- The actions an operation adds are determined by the two lists. -/
theorem eq_of_withActions {s u : State} {acts added : List Action} (hu : u.actions = s.actions)
    (h : (u.withActions added).actions = s.actions ++ acts) : acts = added := by
  rw [State.withActions_actions, hu] at h
  exact (List.append_cancel_left h).symm

/-- Settles O39. -/
theorem clockSelectWriteTakesTheNmiFlag : Obligations.ClockSelectWriteTakesTheNmiFlag := fun d s =>
  ⟨decode_encode (.iowRtc0 d) rfl, exec_iowRtc0 d s⟩

/-- Settles O43. -/
theorem diagnosticsWriteStoresAndForwardsThree : Obligations.DiagnosticsWriteStoresAndForwardsThree := fun d s =>
  ⟨decode_encode (.iowPortb d) rfl, exec_iowPortb d s⟩

/-- Settles O44. -/
theorem timerOutputIsRecordedAndTheLevelForwarded : Obligations.TimerOutputIsRecordedAndTheLevelForwarded := exec_out2

/-- Settles O41: an operation may add the NMI state only as one of the two writes, whose last action it is. -/
theorem nmiStateIsForwardedByItsTwoWritesOnly : Obligations.NmiStateIsForwardedByItsTwoWritesOnly := by
  intro i s t hnot h
  obtain ⟨acts, hacts, hmay⟩ := (exec_effect hnot h).records
  refine ⟨acts, hacts, ?_, fun b hb => hmay _ hb⟩
  rintro ⟨d, rfl | rfl⟩
  · rw [exec_iowRtc0] at h
    cases h
    rw [eq_of_withActions rfl hacts]
    rfl
  · rw [exec_iowPortb] at h
    cases h
    rw [eq_of_withActions rfl hacts]
    rfl

/-- Settles O45: likewise the speaker level, for the write of port 0x61 and the report of timer output 2. -/
theorem speakerLevelIsForwardedByItsTwoSourcesOnly : Obligations.SpeakerLevelIsForwardedByItsTwoSourcesOnly := by
  intro i s t hnot h
  obtain ⟨acts, hacts, hmay⟩ := (exec_effect hnot h).records
  refine ⟨acts, hacts, ?_, fun b hb => hmay _ hb⟩
  rintro (⟨d, rfl⟩ | ⟨l, rfl⟩)
  · rw [exec_iowPortb] at h
    cases h
    rw [eq_of_withActions rfl hacts]
    exact .tail _ (.head _)
  · rw [exec_out2] at h
    cases h
    rw [eq_of_withActions rfl hacts]
    exact .head _

/-! ## The read of port 0x61 (44_nmi_diag_gate.md R193) -/

theorem exec_iorPortb (s : State) :
    exec .iorPortb s = .next { s.byteQueried .envRefreshToggle with
      ret := .u8 (portbView s.portb (s.answer.getLsbD 0) s.pitOut2) } := rfl

/-- The two live bits lie in the two cleared places; every other bit is the stored byte's. -/
theorem portbView_getLsbD (portb : Byte) (toggle out2 : Bool) {n : Nat} (hn : n < 8) :
    (portbView portb toggle out2).getLsbD n = if n = 4 then toggle else if n = 5 then out2 else portb.getLsbD n := by
  have hbit (b : Bool) (k : Nat) (hk : k < 8) : (bitAt b k).getLsbD n = (b && decide (n = k)) := by
    interval_cases k <;> interval_cases n <;> cases b <;> rfl
  have hclear : (~~~portbClear).getLsbD n = decide (n ≠ 4 ∧ n ≠ 5) := by
    interval_cases n <;> rfl
  rw [portbView, portbToggleBit, portbOut2Bit, BitVec.getLsbD_or, BitVec.getLsbD_or, BitVec.getLsbD_and, hclear,
    hbit toggle 4 (by decide), hbit out2 5 (by decide)]
  by_cases h4 : n = 4
  · simp [h4]
  · by_cases h5 : n = 5 <;> simp [h4, h5]

/-- Settles O40. -/
theorem diagnosticsReadComposesStoredAndLiveBits : Obligations.DiagnosticsReadComposesStoredAndLiveBits := fun s =>
  ⟨decode_encode .iorPortb rfl, _, exec_iorPortb s, fun _ hn => portbView_getLsbD _ _ _ hn⟩

end Sys2Proof.Machine
end

section
/-! The lifecycle operations (46_lifecycle.md) and the reset (70_reset_and_hazards.md R250). -/

namespace Sys2Proof.Machine

theorem exec_start (s : State) :
    exec .start s = .next { s with a20Registered := s.a20Registered || s.board.cpuHasA20Gate } := rfl

theorem exec_stop (s : State) : exec .stop s = .next { s with stopped := true } := rfl

theorem exec_reset (s : State) :
    exec .reset s = .next
      { s with spkrData := false, pitOut2 := true, owner := .idle, eop1 := false, eop2 := false } := rfl

theorem exec_a20mask_registered {s : State} (l : Bool) (h : s.a20Registered = true) :
    exec (.a20mask l) s = .next { s with ret := .u24 (a20Mask l) } := if_pos h

theorem exec_a20mask_unregistered {s : State} (l : Bool) (h : s.a20Registered = false) :
    exec (.a20mask l) s = .refused .a20NotRegistered := if_neg (Bool.eq_false_iff.1 h)

/-- Settles O46. -/
theorem startRegistersTheA20CallbackIfTheCpuHasOne : Obligations.StartRegistersTheA20CallbackIfTheCpuHasOne :=
  fun l s => ⟨exec_start s, exec_a20mask_unregistered l⟩

/-- Settles O47: the two masks are the parameters R212 gives, and they differ in bit 20. -/
theorem a20MaskForcesBitTwentyLow : Obligations.A20MaskForcesBitTwentyLow := fun _ h =>
  ⟨exec_a20mask_registered true h, exec_a20mask_registered false h, by decide⟩

/-- Settles O48. -/
theorem stopWritesNothingAndEndsTheRun : Obligations.StopWritesNothingAndEndsTheRun := fun s =>
  ⟨exec_stop s, if_pos rfl⟩

/-- Settles O49. -/
theorem resetWritesFiveFieldsAndEmitsNothing : Obligations.ResetWritesFiveFieldsAndEmitsNothing := exec_reset

/-- Settles O50: the reset state already holds what the reset writes. -/
theorem resetStateIsAfterReset : Obligations.ResetStateIsAfterReset :=
  ⟨rfl, rfl, rfl, rfl, rfl, exec_reset State.reset⟩

end Sys2Proof.Machine
end

section
/-! Which step is taken and when it answers (00_scope.md R6, R10; 60_exceptions.md R220; 20_memory.md R56). -/

namespace Sys2Proof.Machine

/-! ## The input that is taken -/

section Inputs

variable {s : State} {rest : List Input}

theorem State.takeInput_nil (h : s.inputs = []) : s.takeInput = .next (s.beginStep []) := by
  rw [State.takeInput, h]

theorem State.takeInput_memStore {a : PhysAddr} {d : Byte} (h : s.inputs = .memStore a d :: rest) :
    s.takeInput = .next ((s.beginStep rest).storeByte a d) := by
  rw [State.takeInput, h]

theorem State.takeInput_callBack {e : EventName} {a d : Word} (h : s.inputs = .callBack e a d :: rest) :
    s.takeInput = runFrame ⟨.event e, a, d⟩ (s.beginStep rest) := by
  rw [State.takeInput, h]

theorem State.takeInput_op {f : Frame} (h : s.inputs = .op f :: rest) : s.takeInput = runFrame f (s.beginStep rest) := by
  rw [State.takeInput, h]

theorem State.callBackNext_callBack {e : EventName} {a d : Word} (h : s.inputs = .callBack e a d :: rest) :
    s.callBackNext = true := by
  rw [State.callBackNext, h]

theorem State.callBackNext_eq_false (h : ∀ e a d, .callBack e a d ∉ s.inputs) : s.callBackNext = false := by
  rw [State.callBackNext]
  split
  next e a d rest hin => exact absurd (hin ▸ List.mem_cons_self) (h e a d)
  next => rfl

end Inputs

theorem runFrame_ok {f : Frame} {i : Instr} (h : decode f = .ok i) (s : State) : runFrame f s = exec i s := by
  rw [runFrame, h]

theorem runFrame_error {f : Frame} {e : DecodeError} (h : decode f = .error e) (s : State) :
    runFrame f s = .refused (.undecodable e) := by
  rw [runFrame, h]

/-- Settles O51: an operation first in line, or a call-back even before a waiting half, is the input the step takes. -/
theorem stepRunsTheDecodedOperation : Obligations.StepRunsTheDecodedOperation := by
  rintro s f i rest hstop (⟨hhalf, hin⟩ | ⟨e, a, d, rfl, hin⟩) hdecode
  · rw [step_of_input hstop (.inl hhalf), State.takeInput_op hin, runFrame_ok hdecode]
    rfl
  · rw [step_of_input hstop (.inr (State.callBackNext_callBack hin)), State.takeInput_callBack hin, runFrame_ok hdecode]
    rfl

/-- Settles O52, by the first input. -/
theorem stepsWithoutAnOperation : Obligations.StepsWithoutAnOperation := by
  intro s hstop hhalf
  rw [step_of_input hstop (.inl hhalf)]
  refine ⟨?idle, ?store, ?op, ?callBack⟩
  case idle =>
    intro hin
    rw [State.takeInput_nil hin, State.beginStep, hin]
  case store =>
    intro a d rest hin
    refine ⟨_, State.takeInput_memStore hin, ?_, fun x hx => ?_, rfl⟩
    · rw [State.byteAt_storeByte, if_pos rfl]
    · rw [State.byteAt_storeByte, if_neg hx]
      rfl
  case op =>
    intro f rest e hin hdecode
    rw [State.takeInput_op hin, runFrame_error hdecode]
  case callBack =>
    intro n a d rest e hin hdecode
    rw [State.takeInput_callBack hin, runFrame_error hdecode]

/-! ## When an operation answers -/

theorem exec_answers_of_admissible {i : Instr} {s : State} (h : Instr.admissible i s = true) : ∃ t, exec i s = .next t := by
  cases i
  case dmard8 | dmawr8 =>
    simp only [Instr.admissible, State.bytePathOpen] at h
    simp only [exec, execDmard8, execDmawr8]
    cases howner : s.owner with
    | idle => exact ⟨_, rfl⟩
    | owned c => exact ⟨_, if_pos (by simpa [howner] using h)⟩
  case dmard16 | dmawr16 =>
    simp only [Instr.admissible, State.wordPathOpen] at h
    simp only [exec, execDmard16, execDmawr16]
    cases howner : s.owner with
    | idle => exact ⟨_, rfl⟩
    | owned c => exact ⟨_, if_neg (by simpa [howner] using h)⟩
  case irq n l =>
    obtain ⟨dst, hroute⟩ := Option.isSome_iff_exists.1 h
    simp only [exec, execIrq, hroute]
    exact ⟨_, rfl⟩
  case a20mask l => exact ⟨_, exec_a20mask_registered l h⟩
  all_goals exact ⟨_, rfl⟩

theorem admissible_of_exec {i : Instr} {s t : State} (h : exec i s = .next t) : Instr.admissible i s = true := by
  cases i
  case dmard8 | dmawr8 =>
    simp only [exec, execDmard8, execDmawr8] at h
    simp only [Instr.admissible, State.bytePathOpen]
    cases howner : s.owner with
    | idle => rfl
    | owned c =>
      simp only [howner] at h
      split at h
      next hc => exact hc
      next => cases h
  case dmard16 | dmawr16 =>
    simp only [exec, execDmard16, execDmawr16] at h
    simp only [Instr.admissible, State.wordPathOpen]
    cases howner : s.owner with
    | idle => rfl
    | owned c =>
      simp only [howner] at h
      split at h
      next => cases h
      next hc => simpa using hc
  case irq n l =>
    obtain ⟨dst, hroute, -⟩ := exec_irq_next h
    exact Option.isSome_iff_exists.2 ⟨dst, hroute⟩
  case a20mask l =>
    by_contra hreg
    rw [exec_a20mask_unregistered l (Bool.eq_false_iff.2 hreg)] at h
    cases h
  all_goals rfl

/-- The admissible operations are the ones with a meaning, exactly. -/
theorem exec_next_iff {i : Instr} {s : State} : (∃ t, exec i s = .next t) ↔ Instr.admissible i s = true :=
  ⟨fun ⟨_, h⟩ => admissible_of_exec h, exec_answers_of_admissible⟩

/-- Taking an input changes nothing that admissibility looks at. -/
theorem admissible_beginStep (i : Instr) (rest : List Input) (s : State) :
    Instr.admissible i (s.beginStep rest) = Instr.admissible i s := by
  simp only [Instr.admissible, State.bytePathOpen, State.wordPathOpen, State.beginStep_owner, State.beginStep_board,
    State.beginStep_a20Registered]

theorem runFrame_next_iff {f : Frame} {rest : List Input} {s : State} :
    (∃ t, runFrame f (s.beginStep rest) = .next t) ↔ frameReady f s = true := by
  rw [frameReady]
  cases hdecode : decode f with
  | ok i => rw [runFrame_ok hdecode, exec_next_iff, admissible_beginStep]
  | error e => simp [runFrame_error hdecode]

/-! ## When a step answers -/

/-- A step that takes its first input answers unless that input is refused; what waits is then not due. -/
theorem takeInput_next_iff {s : State} (hstop : s.stopped = false) (hdue : s.half = none ∨ s.callBackNext = true) :
    (∃ t, s.takeInput = .next t) ↔ s.ready = true := by
  cases hin : s.inputs with
  | nil => simp [State.takeInput_nil hin, State.ready, hstop, hin]
  | cons x rest =>
    cases x with
    | memStore a d => simp [State.takeInput_memStore hin, State.ready, hstop, hin]
    | callBack e a d =>
      rw [State.takeInput_callBack hin, runFrame_next_iff]
      simp [State.ready, hstop, hin]
    | op f =>
      have hhalf : s.half = none := hdue.resolve_right (by simp [State.callBackNext, hin])
      rw [State.takeInput_op hin, runFrame_next_iff]
      simp [State.ready, hstop, hin, hhalf]

/-- A second half is refused by nothing. -/
theorem ready_of_half {s : State} {w : WordHalf} (hstop : s.stopped = false) (hhalf : s.half = some w)
    (hnext : s.callBackNext = false) : s.ready = true := by
  cases hin : s.inputs with
  | nil => simp [State.ready, hstop, hin]
  | cons x rest =>
    cases x with
    | memStore a d => simp [State.ready, hstop, hin]
    | callBack e a d => simp [State.callBackNext_callBack hin] at hnext
    | op f => simp [State.ready, hstop, hin, hhalf]

/-- Settles O53: after teardown neither side holds, and otherwise a second half or the first input is due. -/
theorem stepAnswersNextExactlyWhenReady : Obligations.StepAnswersNextExactlyWhenReady := by
  intro s
  cases hstop : s.stopped
  case true => simp [step, State.ready, hstop]
  case false =>
    by_cases hdue : s.half = none ∨ s.callBackNext = true
    case pos => rw [step_of_input hstop hdue, takeInput_next_iff hstop hdue]
    case neg =>
      obtain ⟨hhalf, hnext⟩ := not_or.1 hdue
      obtain ⟨w, hhalf⟩ := Option.ne_none_iff_exists'.1 hhalf
      have hnext : s.callBackNext = false := Bool.eq_false_iff.2 hnext
      exact ⟨fun _ => ready_of_half hstop hhalf hnext, fun _ => ⟨_, step_of_half hstop hhalf hnext⟩⟩

/-! ## Runs of port accesses -/

/-- What the CPU can send: byte and word port accesses, and changes of memory beside the block. -/
def Input.FromCpu (x : Input) : Prop :=
  (∃ a d, x = .memStore a d) ∨
    (∃ p : Port, x = .op ⟨.port .read .byte, p, 0⟩ ∨ x = .op ⟨.port .read .word, p, 0⟩) ∨
    (∃ (p : Port) (d : Byte), x = .op ⟨.port .write .byte, p, d.setWidth 16⟩) ∨
    (∃ (p : Port) (w : Word), x = .op ⟨.port .write .word, p, w⟩)

/-- A machine that is not torn down and has only the CPU's inputs in line. -/
structure State.CpuDriven (s : State) : Prop where
  notStopped : s.stopped = false
  fromCpu : ∀ x ∈ s.inputs, x.FromCpu

theorem decodeRead_harmless (p : Port) :
    decodeRead p ≠ .stop ∧ ∀ s, Instr.admissible (decodeRead p) s = true := by
  unfold decodeRead
  cases portClass p <;> exact ⟨nofun, fun _ => rfl⟩

theorem decodeWrite_harmless (p : Port) (d : Byte) :
    decodeWrite p d ≠ .stop ∧ ∀ s, Instr.admissible (decodeWrite p d) s = true := by
  unfold decodeWrite
  cases portClass p <;> exact ⟨nofun, fun _ => rfl⟩

/-- A port access decodes, to no teardown and to nothing that is refused (30_encoding.md R89). -/
theorem decode_fromCpu {f : Frame} (h : Input.FromCpu (.op f)) :
    ∃ i, decode f = .ok i ∧ i ≠ .stop ∧ ∀ s, Instr.admissible i s = true := by
  rcases h with ⟨a, d, h⟩ | ⟨p, h | h⟩ | ⟨p, d, h⟩ | ⟨p, w, h⟩ <;> cases h
  · exact ⟨_, decode_readFrame p, decodeRead_harmless p⟩
  · exact ⟨.ior16 p, rfl, nofun, fun _ => rfl⟩
  · exact ⟨_, decode_writeFrame p d, decodeWrite_harmless p d⟩
  · exact ⟨.iow16 p w, rfl, nofun, fun _ => rfl⟩

theorem Instr.Writes.stopped_eq {i : Instr} {s u : State} (hi : i ≠ .stop) (hw : Instr.Writes i s u) :
    u.stopped = s.stopped := by
  cases hw
  case stop => exact absurd rfl hi
  case pageRegister p d => cases pageCell p <;> rfl
  all_goals rfl

/-- Only `STOP` tears the machine down. -/
theorem exec_stopped_eq {i : Instr} {s t : State} (hi : i ≠ .stop) (h : exec i s = .next t) : t.stopped = s.stopped := by
  refine exec_of_byteWrites (R := fun s t => t.stopped = s.stopped) (Q := fun i => i ≠ .stop) (fun hi hnot h => ?_)
    (fun _ _ => rfl) (fun hst htu => htu.trans hst) (fun p d => (decodeWrite_harmless p d).1) hi h
  obtain ⟨u, hw, hq⟩ := exec_effect hnot h
  exact hq.stopped.trans (hw.stopped_eq hi)

theorem WordHalf.byteAccess_ne_stop (h : WordHalf) : h.byteAccess ≠ .stop := by
  cases h with
  | read p lo => exact (decodeRead_harmless p).1
  | write p d => exact (decodeWrite_harmless p d).1

theorem State.CpuDriven.exec {i : Instr} {s t : State} (hs : s.CpuDriven) (hi : i ≠ .stop)
    (h : Machine.exec i s = .next t) : t.CpuDriven := by
  obtain ⟨-, hinputs⟩ := operationsOnlyAppendActions i s t h
  exact ⟨(exec_stopped_eq hi h).trans hs.notStopped, hinputs ▸ hs.fromCpu⟩

theorem State.CpuDriven.resumeWord {s : State} (hs : s.CpuDriven) (w : WordHalf) : (s.resumeWord w).CpuDriven := by
  obtain ⟨u, r, hexec, hsecond⟩ := State.secondHalf_eq w ({ s with half := none }.beginStep s.inputs)
  have hbegin : ({ s with half := none }.beginStep s.inputs).CpuDriven := { hs with }
  rw [State.resumeWord, hsecond]
  exact { hbegin.exec w.byteAccess_ne_stop hexec with }

/-- The first input of a CPU-driven machine has a meaning, and what follows it is the CPU's too. -/
theorem State.CpuDriven.takeInput {s : State} (hs : s.CpuDriven) : ∃ t, s.takeInput = .next t ∧ t.CpuDriven := by
  cases hin : s.inputs with
  | nil => exact ⟨_, State.takeInput_nil hin, hs.notStopped, nofun⟩
  | cons x rest =>
    obtain ⟨hx, hrest⟩ := List.forall_mem_cons.1 (hin ▸ hs.fromCpu)
    have hbegin : (s.beginStep rest).CpuDriven := ⟨hs.notStopped, hrest⟩
    cases x with
    | memStore a d => exact ⟨_, State.takeInput_memStore hin, { hbegin with }⟩
    | callBack e a d => simp [Input.FromCpu] at hx
    | op f =>
      obtain ⟨i, hdecode, hi, hadmissible⟩ := decode_fromCpu hx
      obtain ⟨t, ht⟩ := exec_answers_of_admissible (hadmissible (s.beginStep rest))
      exact ⟨t, by rw [State.takeInput_op hin, runFrame_ok hdecode, ht], hbegin.exec hi ht⟩

theorem State.CpuDriven.step {s : State} (hs : s.CpuDriven) : ∃ t, Machine.step s = .next t ∧ t.CpuDriven := by
  cases hhalf : s.half with
  | none => rw [step_of_input hs.notStopped (.inl hhalf)]; exact hs.takeInput
  | some w =>
    have hnext : s.callBackNext = false :=
      State.callBackNext_eq_false fun e a d hmem => by simpa [Input.FromCpu] using hs.fromCpu _ hmem
    exact ⟨_, step_of_half hs.notStopped hhalf hnext, hs.resumeWord w⟩

/-- Settles O54, by induction on the length of the run. -/
theorem cpuAccessesNeverStopTheMachine : Obligations.CpuAccessesNeverStopTheMachine := by
  intro n s hstop hinputs
  have hs : s.CpuDriven := ⟨hstop, hinputs⟩
  clear hstop hinputs
  induction n generalizing s with
  | zero => trivial
  | succ n ih =>
    obtain ⟨t, hstep, ht⟩ := hs.step
    exact ⟨t, hstep, ih t ht⟩

end Sys2Proof.Machine
end

section
/-! The pass-through, unbound and undecoded ports (40_port_decoder.md R100 to R116): each range's offset as a number, and
the two directions of each range. -/

namespace Sys2Proof.Machine

/-! ## Offsets (30_encoding.md R86 (a)) -/

/-- Above the base the subtraction does not wrap, so an offset is the port's distance from it. -/
theorem port_sub_eq {p base : Port} (h : base.toNat ≤ p.toNat) : (p - base).toNat = p.toNat - base.toNat :=
  BitVec.toNat_sub_of_le (BitVec.le_def.2 h)

theorem chipOffset_eq {p base : Port} (h : base.toNat ≤ p.toNat) :
    chipOffset p base = BitVec.ofNat 5 (p.toNat - base.toNat) :=
  BitVec.eq_of_toNat_eq (by rw [chipOffset, BitVec.toNat_setWidth, port_sub_eq h, BitVec.toNat_ofNat])

theorem rtcOffset_eq {p : Port} (h : 0x70 ≤ p.toNat) : rtcOffset p = BitVec.ofNat 4 (p.toNat - 0x70) := by
  have hsub : (p - 0x70).toNat = p.toNat - 0x70 := port_sub_eq h
  exact BitVec.eq_of_toNat_eq (by rw [rtcOffset, BitVec.toNat_setWidth, hsub, BitVec.toNat_ofNat])

theorem dma2Offset_eq {p : Port} (h : 0xC0 ≤ p.toNat) : dma2Offset p = BitVec.ofNat 4 ((p.toNat - 0xC0) / 2) := by
  have hsub : (p - 0xC0).toNat = p.toNat - 0xC0 := port_sub_eq h
  exact BitVec.eq_of_toNat_eq (by
    rw [dma2Offset, BitVec.toNat_setWidth, BitVec.toNat_ushiftRight, hsub, BitVec.toNat_ofNat, Nat.shiftRight_eq_div_pow,
      pow_one])

/-! ## One operation per range and direction -/

theorem exec_iorDma1 (p : Port) (s : State) :
    exec (.iorDma1 p) s = .next (s.byteQueried (.dma1Read (chipOffset p 0x00))) := rfl

theorem exec_iowDma1 (p : Port) (d : Byte) (s : State) :
    exec (.iowDma1 p d) s = .next (s.withActions [.dma1Write (chipOffset p 0x00) d]) := rfl

theorem exec_iorPic1 (p : Port) (s : State) :
    exec (.iorPic1 p) s = .next (s.byteQueried (.picRead .pic1 (chipOffset p 0x20))) := rfl

theorem exec_iowPic1 (p : Port) (d : Byte) (s : State) :
    exec (.iowPic1 p d) s = .next (s.withActions [.picWrite .pic1 (chipOffset p 0x20) d]) := rfl

theorem exec_iorPit (p : Port) (s : State) :
    exec (.iorPit p) s = .next (s.byteQueried (.pitRead (chipOffset p 0x40))) := rfl

theorem exec_iowPit (p : Port) (d : Byte) (s : State) :
    exec (.iowPit p d) s = .next (s.withActions [.pitWrite (chipOffset p 0x40) d]) := rfl

theorem exec_iorKbdData (s : State) : exec .iorKbdData s = .next (s.byteQueried .kbcDataR) := rfl

theorem exec_iowKbdData (d : Byte) (s : State) : exec (.iowKbdData d) s = .next (s.withActions [.kbcDataW d]) := rfl

theorem exec_iorKbdStatus (s : State) : exec .iorKbdStatus s = .next (s.byteQueried .kbcStatusR) := rfl

theorem exec_iowKbdCmd (d : Byte) (s : State) : exec (.iowKbdCmd d) s = .next (s.withActions [.kbcCommandW d]) := rfl

theorem exec_iorRtc (p : Port) (s : State) :
    exec (.iorRtc p) s = .next (s.byteQueried (.rtcRead (rtcOffset p))) := rfl

theorem exec_iowRtc (p : Port) (d : Byte) (s : State) :
    exec (.iowRtc p d) s = .next (s.withActions [.rtcWrite (rtcOffset p) d]) := rfl

theorem exec_iorPic2 (p : Port) (s : State) :
    exec (.iorPic2 p) s = .next (s.byteQueried (.picRead .pic2 (chipOffset p 0xA0))) := rfl

theorem exec_iowPic2 (p : Port) (d : Byte) (s : State) :
    exec (.iowPic2 p d) s = .next (s.withActions [.picWrite .pic2 (chipOffset p 0xA0) d]) := rfl

theorem exec_iorDma2 (p : Port) (s : State) :
    exec (.iorDma2 p) s = .next (s.byteQueried (.dma2Read (dma2Offset p))) := rfl

theorem exec_iowDma2 (p : Port) (d : Byte) (s : State) :
    exec (.iowDma2 p d) s = .next (s.withActions [.dma2Write (dma2Offset p) d]) := rfl

theorem exec_iorUnmapped (p : Port) (s : State) : exec (.iorUnmapped p) s = .next { s with ret := .u8 0xFF } := rfl

theorem exec_iowUnmapped (p : Port) (d : Byte) (s : State) : exec (.iowUnmapped p d) s = .next s := rfl

theorem exec_iorNoclaim (p : Port) (s : State) :
    exec (.iorNoclaim p) s = .next
      { s with
        platformReads := s.platformReads.tail
        draws := if s.platformReads.isEmpty then s.draws + 1 else s.draws
        ret := .u8 (s.platformAnswer.getD 0xFF) } :=
  congrArg Host.Outcome.next s.giveByte_platformByte

/-- With an answer of the platform lined up, that answer is taken and nothing is drawn. -/
theorem exec_iorNoclaim_of_cons {p : Port} {s : State} {r : Option Byte} {rest : List (Option Byte)}
    (h : s.platformReads = r :: rest) :
    exec (.iorNoclaim p) s = .next { s with platformReads := rest, ret := .u8 (r.getD 0xFF) } := by
  rw [exec_iorNoclaim, State.platformAnswer_of_cons h, h]
  rfl

theorem exec_iowNoclaim (p : Port) (d : Byte) (s : State) : exec (.iowNoclaim p d) s = .next s := rfl

/-! ## The ranges -/

/-- Settles O6: what each port decodes to, and its one query at the distance from the range's base. -/
theorem chipPortReadsQueryTheOwner : Obligations.ChipPortReadsQueryTheOwner := by
  intro p s
  obtain ⟨-, -, hdma1, hpic1, hpit, hkbdData, -, hkbdControl, hrtc, -, -, -, -, hpic2, -⟩ := portMapDecodesByRange p 0 0
  refine ⟨fun hhi => ⟨(hdma1 hhi).1, ?_⟩, fun hlo hhi => ⟨(hpic1 hlo hhi).1, ?_⟩, fun hlo hhi => ⟨(hpit hlo hhi).1, ?_⟩,
    fun h => ⟨(hkbdData h).1, exec_iorKbdData s⟩, fun h => ⟨(hkbdControl h).1, exec_iorKbdStatus s⟩,
    fun hlo hhi => ⟨hrtc hlo hhi, ?_⟩, fun hlo hhi => ⟨(hpic2 hlo hhi).1, ?_⟩⟩
  · rw [exec_iorDma1, chipOffset_eq (Nat.zero_le _)]
    rfl
  · rw [exec_iorPic1, chipOffset_eq (base := 0x20) hlo]
    rfl
  · rw [exec_iorPit, chipOffset_eq (base := 0x40) hlo]
    rfl
  · rw [exec_iorRtc, rtcOffset_eq hlo]
  · rw [exec_iorPic2, chipOffset_eq (base := 0xA0) hlo]
    rfl

/-- Settles O7, the other direction. -/
theorem chipPortWritesForwardTheByte : Obligations.ChipPortWritesForwardTheByte := by
  intro p d s
  obtain ⟨-, -, hdma1, hpic1, hpit, hkbdData, -, hkbdControl, -, -, hrtc, -, -, hpic2, -⟩ := portMapDecodesByRange p d 0
  refine ⟨fun hhi => ⟨(hdma1 hhi).2, ?_⟩, fun hlo hhi => ⟨(hpic1 hlo hhi).2, ?_⟩, fun hlo hhi => ⟨(hpit hlo hhi).2, ?_⟩,
    fun h => ⟨(hkbdData h).2, exec_iowKbdData d s⟩, fun h => ⟨(hkbdControl h).2, exec_iowKbdCmd d s⟩,
    fun hlo hhi => ⟨hrtc hlo hhi, ?_⟩, fun hlo hhi => ⟨(hpic2 hlo hhi).2, ?_⟩⟩
  · rw [exec_iowDma1, chipOffset_eq (Nat.zero_le _)]
    rfl
  · rw [exec_iowPic1, chipOffset_eq (base := 0x20) hlo]
    rfl
  · rw [exec_iowPit, chipOffset_eq (base := 0x40) hlo]
    rfl
  · rw [exec_iowRtc, rtcOffset_eq (Nat.le_of_succ_le hlo)]
  · rw [exec_iowPic2, chipOffset_eq (base := 0xA0) hlo]
    rfl

/-- Settles O8: the shift of R112 is the halving of an even distance. -/
theorem secondaryDmaPortsAreEvenAndHalved : Obligations.SecondaryDmaPortsAreEvenAndHalved := by
  intro p d s hlo hhi heven
  have hwf := Port.secondaryDma_wf hlo hhi heven
  refine ⟨decode_encode (.iorDma2 p) hwf, decode_encode (.iowDma2 p d) hwf, ?_, ?_⟩
  · rw [exec_iorDma2, dma2Offset_eq hlo]
  · rw [exec_iowDma2, dma2Offset_eq hlo]

/-- Settles O9. -/
theorem unboundPortsReadAllOnesAndDiscardWrites : Obligations.UnboundPortsReadAllOnesAndDiscardWrites := by
  intro p d s h
  have hwf := Port.unbound_of_range h
  exact ⟨decode_encode (.iorUnmapped p) hwf, decode_encode (.iowUnmapped p d) hwf, exec_iorUnmapped p s,
    exec_iowUnmapped p d s⟩

/-- Settles O10: the platform's next answer decides, a device's byte or the default. -/
theorem undecodedPortsLeaveTheBlockAlone : Obligations.UndecodedPortsLeaveTheBlockAlone := by
  intro p d s hlo
  have hwf := Port.within_of_le hlo (Nat.le_of_lt_succ p.isLt)
  exact ⟨decode_encode (.iorNoclaim p) hwf, decode_encode (.iowNoclaim p d) hwf, exec_iorNoclaim p s,
    fun _ _ h => exec_iorNoclaim_of_cons h, fun _ h => exec_iorNoclaim_of_cons h, exec_iowNoclaim p d s⟩

end Sys2Proof.Machine
end

section
/-! The word port accesses (40_port_decoder.md R117, R118; 20_memory.md R56): both halves are the byte accesses the decoder
selects. -/

namespace Sys2Proof.Machine

/-! ## The two bytes of a word -/

theorem lowByte_eq_extract (w : Word) : lowByte w = w.extractLsb' 0 8 :=
  BitVec.eq_of_toNat_eq (by simp [lowByte])

theorem highByte_eq_extract (w : Word) : highByte w = w.extractLsb' 8 8 :=
  BitVec.eq_of_toNat_eq (by simp [highByte])

/-! ## The first half -/

/-- A byte read neither looks at the return value nor gives one; `IOR` does that at its end (00_scope.md R6). -/
theorem portIn_giveRet (p : Port) (r : Ret) (s : State) :
    portIn p (s.giveRet r) = ((portIn p s).1, (portIn p s).2.giveRet r) := by
  unfold portIn
  cases portClass p <;> rfl

theorem portIn_ret (p : Port) (s : State) : (portIn p s).2.ret = s.ret := by
  rcases portIn_snd p s with h | h | ⟨a, h⟩ <;> rw [h] <;> rfl

theorem exec_ior16_callBack {p : Port} {s : State} (h : s.callBackNext = true) :
    exec (.ior16 p) s = .next { (portIn p s).2 with half := some (.read (p + 1) (portIn p s).1) } :=
  congrArg Host.Outcome.next (State.afterFirstHalf_callBack _ ((portIn_callBackNext p s).trans h))

theorem exec_ior16_whole {p : Port} {s : State} (h : s.callBackNext = false) :
    exec (.ior16 p) s = .next ((portIn p s).2.secondHalf (.read (p + 1) (portIn p s).1)) :=
  congrArg Host.Outcome.next (State.afterFirstHalf_none _ ((portIn_callBackNext p s).trans h))

theorem exec_iow16_callBack {p : Port} {w : Word} {s : State} (h : s.callBackNext = true) :
    exec (.iow16 p w) s = .next { portOut p (lowByte w) s with half := some (.write (p + 1) (highByte w)) } :=
  congrArg Host.Outcome.next (State.afterFirstHalf_callBack _ ((portOut_callBackNext p (lowByte w) s).trans h))

theorem exec_iow16_whole {p : Port} {w : Word} {s : State} (h : s.callBackNext = false) :
    exec (.iow16 p w) s = .next ((portOut p (lowByte w) s).secondHalf (.write (p + 1) (highByte w))) :=
  congrArg Host.Outcome.next (State.afterFirstHalf_none _ ((portOut_callBackNext p (lowByte w) s).trans h))

/-! ## The second half -/

/-- The second half of a read, from the state a byte read left: its byte goes above the one already read. -/
theorem secondHalf_read_eq (p : Port) (lo : Byte) (r : Ret) (s : State) :
    s.secondHalf (.read p lo) =
      { State.giveByte (portIn p (s.giveRet r)) with ret := .u16 ((portIn p (s.giveRet r)).1 ++ lo) } := by
  rw [portIn_giveRet, State.secondHalf]
  generalize portIn p s = hi
  rfl

/-- Settles O11: the byte reads are the decoder's own, whose meaning is `portIn`. -/
theorem wordReadIsTwoByteReads : Obligations.WordReadIsTwoByteReads := by
  intro p s
  refine ⟨decode_encode (.ior16 p) rfl, decodeRead p, decodeRead (p + 1), State.giveByte (portIn p s), (portIn p s).1,
    decode_readFrame p, decode_readFrame (p + 1), exec_decodeRead p s, rfl, ?whole, ?callBack, ?resumed⟩
  case whole =>
    intro hnext
    refine ⟨_, (portIn (p + 1) (State.giveByte (portIn p s))).1, exec_decodeRead (p + 1) _, rfl, ?_⟩
    rw [exec_ior16_whole hnext, secondHalf_read_eq (p + 1) _ (.u8 (portIn p s).1)]
    rfl
  case callBack =>
    intro hnext
    rw [exec_ior16_callBack hnext, ← portIn_ret p s]
    rfl
  case resumed =>
    intro u b hstop hhalf hnext
    exact ⟨_, _, exec_decodeRead (p + 1) _, rfl, step_of_half hstop hhalf hnext⟩

/-- Settles O12: likewise for writes, where the second half is the byte write itself. -/
theorem wordWriteIsTwoByteWrites : Obligations.WordWriteIsTwoByteWrites := by
  intro p w s
  rw [← lowByte_eq_extract, ← highByte_eq_extract]
  refine ⟨decode_encode (.iow16 p w) rfl, decodeWrite p (lowByte w), decodeWrite (p + 1) (highByte w),
    portOut p (lowByte w) s, decode_writeFrame p _, decode_writeFrame (p + 1) _, exec_decodeWrite p _ s, ?whole,
    exec_iow16_callBack, ?resumed⟩
  case whole => exact fun hnext => ⟨_, exec_decodeWrite (p + 1) _ _, exec_iow16_whole hnext⟩
  case resumed => exact fun u hstop hhalf hnext => ⟨_, exec_decodeWrite (p + 1) _ _, step_of_half hstop hhalf hnext⟩

end Sys2Proof.Machine
end

section
/-! The page ports (41_dma_page_xlat.md R130 to R133, R139): the cell each port reaches, and what it reads back. -/

namespace Sys2Proof.Machine

/-! ## The cell of a port -/

theorem toNat_pageOffset (p : Port) : (pageOffset p).toNat = p.toNat % 8 := by
  simp [pageOffset, BitVec.extractLsb'_toNat]

theorem pageOffset_eq {p : Port} {k : Nat} (h : p.toNat % 8 = k) : pageOffset p = BitVec.ofNat 3 k := by
  subst h
  exact BitVec.eq_of_toNat_eq (by rw [toNat_pageOffset, BitVec.toNat_ofNat]; exact (Nat.mod_mod _ 8).symm)

theorem pageSet_eq (p : Port) : pageSet p = decide (p.toNat / 8 % 2 = 1) := by
  rw [pageSet, BitVec.getLsbD, Nat.testBit_eq_decide_div_mod_eq]

theorem genIndex_eq_iff {p q : Port} : genIndex q = genIndex p ↔ q.toNat % 16 = p.toNat % 16 := by
  rw [genIndex, genIndex, Fin.mk.injEq]

/-- An offset of the table `PAGE_SEL` and port bit 3 name the register; port bit 4 takes no part. -/
theorem pageCell_of_select {p : Port} {i : Fin 4} (h : pageSel (pageOffset p) = some i) :
    pageCell p = if p.toNat / 8 % 2 = 1 then .wordSet i else .byteSet i := by
  rw [pageCell, h, pageSet_eq]
  simp only [decide_eq_true_eq]

theorem pageCell_of_generic {p : Port} (h : pageSel (pageOffset p) = none) : pageCell p = .generic (genIndex p) := by
  rw [pageCell, h]

theorem pageSel_eq_none_of_generic {p : Port} (h : p.selectsPage = false) : pageSel (pageOffset p) = none := by
  have hoffset : pageOffset p ∉ [1#3, 2#3, 3#3, 7#3] := fun hmem =>
    of_decide_eq_false h ((Port.pageOffset_mem_iff p).1 hmem)
  exact (by decide : ∀ k ∉ [1#3, 2#3, 3#3, 7#3], pageSel k = none) _ hoffset

/-- The table of D6, entry by entry. -/
theorem pageSel_of_table {k : Nat} {i : Fin 4} (h : (k, i) ∈ ([(1, 2), (2, 3), (3, 1), (7, 0)] : List (Nat × Fin 4))) :
    pageSel (BitVec.ofNat 3 k) = some i :=
  (by decide : ∀ r ∈ ([(1, 2), (2, 3), (3, 1), (7, 0)] : List (Nat × Fin 4)), pageSel (BitVec.ofNat 3 r.1) = some r.2) _ h

theorem table_offset_mem {k : Nat} {i : Fin 4} (h : (k, i) ∈ ([(1, 2), (2, 3), (3, 1), (7, 0)] : List (Nat × Fin 4))) :
    k ∈ [1, 2, 3, 7] :=
  List.mem_map_of_mem (f := Prod.fst) h

/-! ## The four operations -/

theorem exec_iorPageSel (p : Port) (s : State) :
    exec (.iorPageSel p) s = .next { s with ret := .u8 (s.readCell (pageCell p)) } := rfl

theorem exec_iowPageSel (p : Port) (d : Byte) (s : State) :
    exec (.iowPageSel p d) s = .next (s.writeCell (pageCell p) d) := rfl

theorem exec_iorPageGen (p : Port) (s : State) :
    exec (.iorPageGen p) s = .next { s with ret := .u8 (s.gen.get (genIndex p)) } := rfl

theorem exec_iowPageGen (p : Port) (d : Byte) (s : State) :
    exec (.iowPageGen p d) s = .next { s with gen := s.gen.set (genIndex p).val d (genIndex p).isLt } := rfl

/-- Settles O13: the offset names the register and port bit 3 the set. -/
theorem pageSelectPortsReachTheirRegister : Obligations.PageSelectPortsReachTheirRegister := by
  intro p d s k i hki hlo hhi hk
  have hwf := Port.pageSelect_wf hlo hhi (hk ▸ table_offset_mem hki)
  have hcell := pageCell_of_select (p := p) (i := i) (by rw [pageOffset_eq hk, pageSel_of_table hki])
  refine ⟨decode_encode (.iorPageSel p) hwf, decode_encode (.iowPageSel p d) hwf, fun hbyte => ?_, fun hword => ?_⟩
  · rw [exec_iorPageSel, exec_iowPageSel, hcell, if_neg (by omega)]
    exact ⟨rfl, rfl⟩
  · rw [exec_iorPageSel, exec_iowPageSel, hcell, if_pos hword]
    exact ⟨rfl, rfl⟩

/-- Settles O14. -/
theorem genericPagePortsTouchOnlyTheReadbackStore : Obligations.GenericPagePortsTouchOnlyTheReadbackStore := by
  intro p d s g hlo hhi hk hg
  have hwf := Port.pageGeneric_wf hlo hhi hk
  obtain rfl : genIndex p = g := Fin.ext hg.symm
  exact ⟨decode_encode (.iorPageGen p) hwf, decode_encode (.iowPageGen p d) hwf, exec_iorPageGen p s,
    exec_iowPageGen p d s⟩

/-! ## Reading back -/

/-- Two ports reach one cell exactly when they agree in their low four bits. -/
theorem pageCell_eq_iff {p q : Port} : pageCell q = pageCell p ↔ q.toNat % 16 = p.toNat % 16 := by
  have split16 (r : Port) : r.toNat % 16 = r.toNat / 8 % 2 * 8 + r.toNat % 8 := by omega
  constructor
  case mp =>
    intro heq
    cases hp : pageSel (pageOffset p) <;> cases hq : pageSel (pageOffset q)
    case none.none =>
      rw [pageCell_of_generic hp, pageCell_of_generic hq, PageCell.generic.injEq] at heq
      exact genIndex_eq_iff.1 heq
    case none.some =>
      rw [pageCell_of_generic hp, pageCell_of_select hq] at heq
      split at heq <;> cases heq
    case some.none =>
      rw [pageCell_of_select hp, pageCell_of_generic hq] at heq
      split at heq <;> cases heq
    case some.some i j =>
      rw [pageCell_of_select hp, pageCell_of_select hq] at heq
      have hsame : j = i ∧ q.toNat / 8 % 2 = p.toNat / 8 % 2 := by
        split at heq <;> split at heq <;> cases heq <;> exact ⟨rfl, by omega⟩
      obtain ⟨rfl, hset⟩ := hsame
      have hoffset := congrArg BitVec.toNat (pageSel_injective hq hp)
      rw [toNat_pageOffset, toNat_pageOffset] at hoffset
      rw [split16, split16, hset, hoffset]
  case mpr =>
    intro heq
    have hoffset : pageOffset q = pageOffset p :=
      BitVec.eq_of_toNat_eq (by rw [toNat_pageOffset, toNat_pageOffset]; omega)
    have hset : q.toNat / 8 % 2 = p.toNat / 8 % 2 := by omega
    rw [pageCell, pageCell, pageSet_eq, pageSet_eq, hoffset, hset, genIndex_eq_iff.2 heq]

/-- On the page ports both forms of an access go through the port's cell. -/
theorem exec_page_access {p : Port} (hlo : 0x80 ≤ p.toNat) (hhi : p.toNat ≤ 0x9F) (d : Byte) (s : State) :
    exec (decodeRead p) s = .next { s with ret := .u8 (s.readCell (pageCell p)) } ∧
      exec (decodeWrite p d) s = .next (s.writeCell (pageCell p) d) := by
  have hrange := Port.within_of_le hlo hhi
  cases hk : p.selectsPage with
  | true =>
    have hclass := portClass_pageSel hrange hk
    rw [decodeRead, decodeWrite, hclass]
    exact ⟨rfl, rfl⟩
  | false =>
    have hclass := portClass_pageGen hrange hk
    rw [decodeRead, decodeWrite, hclass, pageCell_of_generic (pageSel_eq_none_of_generic hk)]
    exact ⟨rfl, rfl⟩

/-- Settles O15: a write is seen through its own cell alone, and ports share a cell modulo 16. -/
theorem pagePortWriteReadsBackThereAndOnlyThere : Obligations.PagePortWriteReadsBackThereAndOnlyThere := by
  intro p q d s hplo hphi hqlo hqhi
  have hread (u : State) := (exec_page_access hqlo hqhi d u).1
  refine ⟨_, _, (exec_page_access hplo hphi d s).2, hread s, ?_⟩
  rw [hread]
  by_cases hcell : pageCell q = pageCell p
  · rw [if_pos (pageCell_eq_iff.1 hcell), hcell, State.readCell_writeCell_same]
  · rw [if_neg (mt pageCell_eq_iff.2 hcell), State.readCell_writeCell_other s d hcell]

end Sys2Proof.Machine
end

section
/-! The word transfer's address (20_memory.md R62) as a number. -/

namespace Sys2Proof.Machine

/-- The mask keeps bits 17 to 23: it drops the page's bit 0 and nothing else of the shifted page. -/
theorem shiftedPage_and_mask (page : Byte) :
    (page.setWidth 24 <<< 16) &&& wordHighMask = (page >>> 1).setWidth 24 <<< 17 := by
  have hmask (n : Nat) (hn : n < 24) : wordHighMask.getLsbD n = decide (17 ≤ n) := by
    interval_cases n <;> rfl
  ext n hn
  rw [← BitVec.getLsbD_eq_getElem, ← BitVec.getLsbD_eq_getElem, BitVec.getLsbD_and, hmask n hn]
  by_cases h17 : 17 ≤ n
  · have hbit : 1 + (n - 17) = n - 16 := by omega
    simp [hn, hbit, h17, show ¬ n < 16 by omega, show ¬ n < 17 by omega, show n - 16 < 24 by omega]
  · simp [h17, show n < 17 by omega]

/-- The shifted offset stays below the masked page's lowest bit, so the two do not overlap. -/
theorem toNat_wordAddr (page : Byte) (off : Word) :
    (wordAddr page off).toNat = page.toNat / 2 * 131072 + 2 * off.toNat := by
  have hpage : page.toNat < 256 := page.isLt
  have hoff : off.toNat < 65536 := off.isLt
  have hhigh : ((page >>> 1).setWidth 24 <<< 17).toNat = (page.toNat / 2) <<< 17 := by
    rw [BitVec.toNat_shiftLeft, BitVec.toNat_setWidth_of_le (by decide), BitVec.toNat_ushiftRight,
      Nat.shiftRight_eq_div_pow, Nat.mod_eq_of_lt (by rw [Nat.shiftLeft_eq]; omega)]
  have hlow : (off.setWidth 24 <<< 1).toNat = 2 * off.toNat := by
    rw [BitVec.toNat_shiftLeft, BitVec.toNat_setWidth_of_le (by decide), Nat.shiftLeft_eq,
      Nat.mod_eq_of_lt (by omega), pow_one, Nat.mul_comm]
  rw [wordAddr, shiftedPage_and_mask, BitVec.toNat_or, hhigh, hlow,
    ← Nat.shiftLeft_add_eq_or_of_lt (by omega), Nat.shiftLeft_eq]

/-- Settles O18: the number names the address, and only half of the page stands in it. -/
theorem wordAddressIsEvenAndIgnoresThePagesLowBit : Obligations.WordAddressIsEvenAndIgnoresThePagesLowBit := by
  intro page off
  refine ⟨rfl, toNat_wordAddr page off, fun page' hhalf => BitVec.eq_of_toNat_eq ?_⟩
  rw [toNat_wordAddr, toNat_wordAddr, hhalf]

end Sys2Proof.Machine
end

section
/-! The memory-side transfers (41_dma_page_xlat.md R134 to R138) and the round trip through the latch (R140): one lemma per
transfer and kind of owner. -/

namespace Sys2Proof.Machine

/-! ## The owner's channel (20_memory.md R52) -/

theorem isByteChannel_of_le {c : Fin 8} (h : c.val ≤ 3) : isByteChannel c = true := decide_eq_true (Nat.lt_succ_of_le h)

theorem isByteChannel_eq_false {c : Fin 8} (h : 4 ≤ c.val) : isByteChannel c = false := decide_eq_false (Nat.not_lt.2 h)

theorem channelInSet_byte {c : Fin 8} {i : Fin 4} (h : i.val = c.val) : channelInSet c = i :=
  Fin.ext (by change c.val % 4 = i.val; omega)

theorem channelInSet_word {c : Fin 8} {j : Fin 4} (h : c.val = j.val + 4) : channelInSet c = j :=
  Fin.ext (by change c.val % 4 = j.val; omega)

theorem wordChannel_eq {c : Fin 8} {j : Fin 4} (h : c.val = j.val + 4) : wordChannel j = c := Fin.ext h.symm

/-! ## No owner -/

section Idle

variable {s : State} (a : Word) (d : Byte) (howner : s.owner = .idle)
include howner

theorem exec_dmard8_idle : exec (.dmard8 a) s = .next (s.giveRet (.u8 idleData)) := by
  simp only [exec, execDmard8, howner]

theorem exec_dmawr8_idle : exec (.dmawr8 a d) s = .next s := by
  simp only [exec, execDmawr8, howner]

theorem exec_dmard16_idle : exec (.dmard16 a) s = .next (s.giveRet (.u8 idleData)) := by
  simp only [exec, execDmard16, howner]

theorem exec_dmawr16_idle : exec (.dmawr16 a d) s = .next s := by
  simp only [exec, execDmawr16, howner]

end Idle

/-! ## An owner of the path's own set -/

theorem exec_dmard8_owned {s : State} {c : Fin 8} {i : Fin 4} (a : Word) (howner : s.owner = .owned c)
    (hi : i.val = c.val) :
    exec (.dmard8 a) s = .next (State.giveByte (s.memRead8 (byteAddr (s.page8.get i) a))) := by
  simp only [exec, execDmard8, howner, isByteChannel_of_le (hi ▸ Nat.le_of_lt_succ i.isLt), if_true,
    State.byteTransferAddr, channelInSet_byte hi]

theorem exec_dmawr8_owned {s : State} {c : Fin 8} {i : Fin 4} (a : Word) (d : Byte) (howner : s.owner = .owned c)
    (hi : i.val = c.val) :
    exec (.dmawr8 a d) s = .next (s.memWrite8 (byteAddr (s.page8.get i) a) d) := by
  simp only [exec, execDmawr8, howner, isByteChannel_of_le (hi ▸ Nat.le_of_lt_succ i.isLt), if_true,
    State.byteTransferAddr, channelInSet_byte hi]

theorem exec_dmard16_owned {s : State} {c : Fin 8} {j : Fin 4} (a : Word) (howner : s.owner = .owned c)
    (hj : c.val = j.val + 4) :
    exec (.dmard16 a) s = .next (State.latchWord (s.memRead16 (wordAddr (s.page16.get j) a))) := by
  simp only [exec, execDmard16, howner, isByteChannel_eq_false (hj ▸ Nat.le_add_left 4 j.val), Bool.false_eq_true,
    if_false, State.wordTransferAddr, channelInSet_word hj]

theorem exec_dmawr16_owned {s : State} {c : Fin 8} {j : Fin 4} (a : Word) (d : Byte) (howner : s.owner = .owned c)
    (hj : c.val = j.val + 4) :
    exec (.dmawr16 a d) s = .next (s.memWrite16 (wordAddr (s.page16.get j) a) (s.latchedWord d)) := by
  simp only [exec, execDmawr16, howner, isByteChannel_eq_false (hj ▸ Nat.le_add_left 4 j.val), Bool.false_eq_true,
    if_false, State.wordTransferAddr, channelInSet_word hj]

/-! ## An owner of the other set -/

section Mismatch

variable {s : State} {c : Fin 8} (a : Word) (d : Byte) (howner : s.owner = .owned c)
include howner

theorem exec_dmard8_mismatch (hc : 4 ≤ c.val) : exec (.dmard8 a) s = .refused .pathOwnerMismatch := by
  simp only [exec, execDmard8, howner, isByteChannel_eq_false hc, Bool.false_eq_true, if_false]

theorem exec_dmawr8_mismatch (hc : 4 ≤ c.val) : exec (.dmawr8 a d) s = .refused .pathOwnerMismatch := by
  simp only [exec, execDmawr8, howner, isByteChannel_eq_false hc, Bool.false_eq_true, if_false]

theorem exec_dmard16_mismatch (hc : c.val ≤ 3) : exec (.dmard16 a) s = .refused .pathOwnerMismatch := by
  simp only [exec, execDmard16, howner, isByteChannel_of_le hc, if_true]

theorem exec_dmawr16_mismatch (hc : c.val ≤ 3) : exec (.dmawr16 a d) s = .refused .pathOwnerMismatch := by
  simp only [exec, execDmawr16, howner, isByteChannel_of_le hc, if_true]

end Mismatch

/-! ## The transfers' statements -/

/-- Settles O23. -/
theorem mismatchedTransfersAreRefused : Obligations.MismatchedTransfersAreRefused := fun a d _ _ howner =>
  ⟨fun hc => ⟨exec_dmard8_mismatch a howner (Nat.le_of_succ_le hc), exec_dmawr8_mismatch a d howner (Nat.le_of_succ_le hc)⟩,
    fun hc => ⟨exec_dmard16_mismatch a howner hc, exec_dmawr16_mismatch a d howner hc⟩⟩

/-- Settles O19: the returned read of memory, written out. -/
theorem byteTransferReadUsesTheOwnersPage : Obligations.ByteTransferReadUsesTheOwnersPage := fun a _ =>
  ⟨exec_dmard8_idle a, fun _ _ howner hi => exec_dmard8_owned a howner hi⟩

/-- Settles O20: one byte of the memory changes, and one action is added. -/
theorem byteTransferWriteUsesTheOwnersPage : Obligations.ByteTransferWriteUsesTheOwnersPage := by
  refine fun a d s => ⟨exec_dmawr8_idle a d, fun c i howner hi => ?_,
    fun c howner hc => exec_dmawr8_mismatch a d howner (Nat.le_of_succ_le hc)⟩
  refine ⟨_, exec_dmawr8_owned a d howner hi, rfl, ?_, fun x hx => ?_, rfl⟩
  · rw [State.memWrite8, State.byteAt_storeByte, if_pos rfl]
  · rw [State.memWrite8, State.byteAt_storeByte, if_neg hx]
    rfl

/-- Settles O21: the two bytes of the word read go to the latch and to the return value. -/
theorem wordTransferReadLatchesTheHighByte : Obligations.WordTransferReadLatchesTheHighByte := by
  refine fun a s => ⟨exec_dmard16_idle a, fun c j howner hj _ => ?_⟩
  rw [exec_dmard16_owned a howner hj, State.latchWord, State.memRead16]
  simp only [highByte_joinBytes, lowByte_joinBytes]
  rw [highByte_eq_extract]
  rfl

/-- Settles O22: the word's two bytes lie at two addresses, the latch at the second. -/
theorem wordTransferWriteJoinsLatchAndByte : Obligations.WordTransferWriteJoinsLatchAndByte := by
  refine fun a d s => ⟨exec_dmawr16_idle a d, fun c j howner hj _ => ?_,
    fun c howner hc => exec_dmawr16_mismatch a d howner hc⟩
  refine ⟨_, exec_dmawr16_owned a d howner hj, rfl, ?_, ?_, fun x hlow hhigh => ?_, rfl⟩
  · rw [State.memWrite16, State.byteAt_storeWord, if_neg (PhysAddr.succ_ne _).symm, if_pos rfl, State.latchedWord,
      lowByte_joinBytes]
  · rw [State.memWrite16, State.byteAt_storeWord, if_pos rfl, State.latchedWord, highByte_joinBytes]
  · rw [State.memWrite16, State.byteAt_storeWord, if_neg hhigh, if_neg hlow]
    rfl

/-! ## Peripheral-side word transfers (42_dma_arbiter.md R159, R160) -/

theorem exec_dior16 (j : Fin 4) (s : State) :
    exec (.dior16 j) s = .next
      { s.byteQueried (.busDack16R (wordChannel j)) with
        hiLatch := highByte s.answer, ret := .u8 (lowByte s.answer) } := rfl

theorem exec_diow16 (j : Fin 4) (d : Byte) (s : State) :
    exec (.diow16 j d) s = .next (s.withActions [.busDack16W (wordChannel j) (s.latchedWord d)]) := rfl

/-- Settles O30. -/
theorem wordPeripheralTransfersUseTheLatch : Obligations.WordPeripheralTransfersUseTheLatch := by
  intro j ch d s hch
  rw [exec_dior16, exec_diow16, wordChannel_eq hch]
  exact ⟨rfl, rfl⟩

/-! ## The round trip through the latch (41_dma_page_xlat.md R140) -/

/-- A byte that has been written answers a byte transfer, whichever page it is reached through. -/
theorem exec_dmard8_written {u : State} {c : Fin 8} {i : Fin 4} {b : Word} {v : Byte} (howner : u.owner = .owned c)
    (hi : c.val = i.val) (hv : u.byteAt (byteAddr (u.page8.get i) b) = some v) :
    ∃ t, exec (.dmard8 b) u = .next t ∧ t.ret = .u8 v :=
  ⟨_, exec_dmard8_owned b howner hi.symm, congrArg Ret.u8 (State.memRead8_written hv)⟩

theorem State.byteAt_congr {s t : State} (h : t.mem = s.mem) (x : PhysAddr) : t.byteAt x = s.byteAt x := by
  rw [State.byteAt, State.byteAt, h]

/-- From the bus to memory: the latch keeps the high byte until the write joins it to the low one. -/
theorem wordFromBus_arrives {s : State} {c : Fin 8} {j : Fin 4} {w : Word} {rest : List Word} (a : Word)
    (howner : s.owner = .owned c) (hj : c.val = j.val + 4) (hanswers : s.answers = w :: rest) :
    ∃ s1 s2 : State, exec (.dior16 j) s = .next s1 ∧ s1.ret = .u8 (lowByte w) ∧
      exec (.dmawr16 a (lowByte w)) s1 = .next s2 ∧
      s2.actions = s.actions ++ [.busDack16R c, .memWrite16 (wordAddr (s.page16.get j) a) w] ∧
      s2.mem = (s.storeWord (wordAddr (s.page16.get j) a) w).mem := by
  have hanswer : s.answer = w := State.answer_of_cons hanswers
  refine ⟨_, _, exec_dior16 j s, by rw [hanswer], exec_dmawr16_owned a (lowByte w) howner hj, ?_, ?_⟩ <;>
    simp only [State.memWrite16, State.latchedWord, hanswer, joinBytes_highByte_lowByte, wordChannel_eq hj]
  · exact List.append_assoc _ _ _
  · rfl

/-- From memory to the bus. -/
theorem wordFromMemory_arrives {s : State} {c : Fin 8} {j : Fin 4} {a : Word} {lo hi : Byte}
    (howner : s.owner = .owned c) (hj : c.val = j.val + 4)
    (hlo : s.byteAt (wordAddr (s.page16.get j) a) = some lo)
    (hhi : s.byteAt (wordAddr (s.page16.get j) a + 1) = some hi) :
    ∃ s1 s2 : State, exec (.dmard16 a) s = .next s1 ∧ s1.ret = .u8 lo ∧ exec (.diow16 j lo) s1 = .next s2 ∧
      s2.actions = s.actions ++ [.memRead16 (wordAddr (s.page16.get j) a), .busDack16W c (hi ++ lo)] := by
  have hword := State.memRead16_written hlo hhi
  refine ⟨_, _, exec_dmard16_owned a howner hj, ?_, exec_diow16 j lo _, ?_⟩
  · rw [State.latchWord, hword, lowByte_joinBytes]
    rfl
  · simp only [State.latchWord, hword, highByte_joinBytes, State.latchedWord, wordChannel_eq hj]
    exact List.append_assoc _ _ _

/-- Settles O24: the two directions, and the stored word's bytes read through any byte channel. -/
theorem wordTransfersRoundTripThroughTheLatch : Obligations.WordTransfersRoundTripThroughTheLatch := by
  refine ⟨fun s c j a w rest howner hj _ hanswers => ?_, fun s c j a lo hi howner hj _ hlo hhi =>
    wordFromMemory_arrives howner hj hlo hhi⟩
  rw [← lowByte_eq_extract, ← highByte_eq_extract]
  obtain ⟨s1, s2, hread, hret, hwrite, hactions, hmem⟩ := wordFromBus_arrives a howner hj hanswers
  refine ⟨s1, s2, hread, hret, hwrite, hactions, fun u i c' b humem huowner hc' => ⟨fun haddr => ?_, fun haddr => ?_⟩⟩ <;>
    refine exec_dmard8_written huowner hc' ?_ <;>
    rw [haddr, State.byteAt_congr (humem.trans hmem), State.byteAt_storeWord]
  · rw [if_neg (PhysAddr.succ_ne _).symm, if_pos rfl]
  · rw [if_pos rfl]

end Sys2Proof.Machine
end

section
/-! Bus ownership, end of process and the request lines (42_dma_arbiter.md). -/

namespace Sys2Proof.Machine

theorem exec_hrq1 (l : Bool) (s : State) : exec (.hrq1 l) s = .next (s.withActions [.dma2Dreq 0 l]) := rfl

theorem exec_dack_grant (c : Fin 8) (s : State) : exec (.dack c false) s = .next (s.grant c) := rfl

theorem exec_dack_release (c : Fin 8) (s : State) : exec (.dack c true) s = .next (s.release c) := rfl

section EndOfProcess

variable {s : State} {c : Fin 8} (l : Bool)

theorem exec_eop1_idle (h : s.owner = .idle) : exec (.eop1 l) s = .next { s with eop1 := l } :=
  congrArg Host.Outcome.next (State.forwardEopToOwner_idle (s := { s with eop1 := l }) l h)

theorem exec_eop2_idle (h : s.owner = .idle) : exec (.eop2 l) s = .next { s with eop2 := l } :=
  congrArg Host.Outcome.next (State.forwardEopToOwner_idle (s := { s with eop2 := l }) l h)

theorem exec_eop1_owned (h : s.owner = .owned c) :
    exec (.eop1 l) s = .next (({ s with eop1 := l }).withActions [.busEop c l]) :=
  congrArg Host.Outcome.next (State.forwardEopToOwner_owned (s := { s with eop1 := l }) l h)

theorem exec_eop2_owned (h : s.owner = .owned c) :
    exec (.eop2 l) s = .next (({ s with eop2 := l }).withActions [.busEop c l]) :=
  congrArg Host.Outcome.next (State.forwardEopToOwner_owned (s := { s with eop2 := l }) l h)

end EndOfProcess

theorem exec_drq_primary {n : Fin 8} {c : Fin 4} (h : c.val = n.val) (l : Bool) (s : State) :
    exec (.drq n l) s = .next (s.withActions [.dma1Dreq c l]) := by
  rw [exec, execDrq, isByteChannel_of_le (h ▸ Nat.le_of_lt_succ c.isLt), if_pos rfl, channelInSet_byte h,
    State.emit_eq_withActions]

theorem exec_drq_secondary {n : Fin 8} {c : Fin 4} (h : c.val + 4 = n.val) (l : Bool) (s : State) :
    exec (.drq n l) s = .next (s.withActions [.dma2Dreq c l]) := by
  rw [exec, execDrq, isByteChannel_eq_false (h ▸ Nat.le_add_left 4 c.val), if_neg Bool.false_ne_true,
    channelInSet_word h.symm, State.emit_eq_withActions]

/-- The flag an acknowledge line consults is that of its channel's controller (R153, D16). -/
theorem State.eopFlag_eq (s : State) (c : Fin 8) : s.eopFlag c = if c.val ≤ 3 then s.eop1 else s.eop2 := by
  by_cases hc : c.val ≤ 3
  · rw [State.eopFlag, isByteChannel_of_le hc, if_pos rfl, if_pos hc]
  · rw [State.eopFlag, isByteChannel_eq_false (Nat.lt_of_not_le hc), if_neg Bool.false_ne_true, if_neg hc]

/-- Settles O25. -/
theorem holdRequestOfThePrimaryDrivesTheCascadeChannel : Obligations.HoldRequestOfThePrimaryDrivesTheCascadeChannel :=
  exec_hrq1

/-- Settles O27: one clause per row of R161. -/
theorem acknowledgeLinesMoveTheOwner : Obligations.AcknowledgeLinesMoveTheOwner := by
  rintro c s flag - rfl
  rw [← State.eopFlag_eq]
  refine ⟨?grant, fun howner => ?release, fun howner => ?other⟩
  case grant => rw [exec_dack_grant, State.grant_eq]
  case release => rw [exec_dack_release, State.release_owner howner]
  case other => rw [exec_dack_release, State.release_other howner]

/-- Settles O28: the owner alone decides whether the level is forwarded. -/
theorem endOfProcessFollowsItsLine : Obligations.EndOfProcessFollowsItsLine := fun l _ =>
  ⟨fun howner => ⟨exec_eop1_idle l howner, exec_eop2_idle l howner⟩,
    fun _ howner => ⟨exec_eop1_owned l howner, exec_eop2_owned l howner⟩⟩

/-- Settles O31. -/
theorem requestLinesReachTheirController : Obligations.RequestLinesReachTheirController := fun _ _ l s _ =>
  ⟨fun h => exec_drq_primary h l s, fun h => exec_drq_secondary h l s⟩

/-- A grant to a channel whose controller's flag is set carries the end of process with it. -/
theorem exec_dack_grant_pending {c : Fin 8} {s : State} (h : s.eopFlag c = true) :
    exec (.dack c false) s = .next (({ s with owner := .owned c }).withActions [.busEop c true]) := by
  rw [exec_dack_grant, State.grant_eq, if_pos h]

/-- Settles O32: the flag stays set until the grant consults it. -/
theorem pendingEndOfProcessIsDeliveredAtTheGrant : Obligations.PendingEndOfProcessIsDeliveredAtTheGrant := by
  intro s c howner _
  by_cases hc : c.val ≤ 3
  case pos =>
    rw [if_pos hc]
    have hflag : ({ s with eop1 := true }).eopFlag c = true := by rw [State.eopFlag_eq, if_pos hc]
    exact ⟨_, _, exec_eop1_idle true howner, rfl, exec_dack_grant_pending hflag, rfl, rfl⟩
  case neg =>
    rw [if_neg hc]
    have hflag : ({ s with eop2 := true }).eopFlag c = true := by rw [State.eopFlag_eq, if_neg hc]
    exact ⟨_, _, exec_eop2_idle true howner, rfl, exec_dack_grant_pending hflag, rfl, rfl⟩

end Sys2Proof.Machine
end

section
/-! The acknowledge mux and the request lines of the interrupt cascade (43_irq_cascade.md R182, R184, R185). -/

namespace Sys2Proof.Machine

theorem exec_slaveack_cascade (s : State) : exec (.slaveack cascadeIr) s = .next (s.byteQueried .pic2Acknowledge) := rfl

theorem exec_slaveack_other {n : Fin 8} (h : n ≠ cascadeIr) (s : State) :
    exec (.slaveack n) s = .next (s.giveRet (.u8 ackDefault)) := congrArg Host.Outcome.next (if_neg h)

/-- Settles O35. -/
theorem cascadeAcknowledgeComesFromTheSecondary : Obligations.CascadeAcknowledgeComesFromTheSecondary := fun s =>
  ⟨exec_slaveack_cascade s, fun _ hn => exec_slaveack_other hn s⟩

theorem exec_irq_of_route {n : Nat} {dst : PicInput} {s : State} (h : irqRoute s.board n = some dst) (l : Bool) :
    exec (.irq n l) s = .next (s.withActions [.picIr dst l]) := by
  simp only [exec, execIrq, h]
  rfl

/-- No bus line shares an input with an on-board source (R185). -/
theorem irqRoute_ne_onboardRoute {b : Board} (hwf : b.wf = true) (n : Nat) (src : OnboardSource) :
    irqRoute b n ≠ some (onboardRoute b src) := by
  intro hroute
  obtain ⟨-, -, honboard⟩ := (board_wf_iff b).mp hwf
  exact (honboard _ (onboardRoute_mem_onboardInputs b src)).2 _ (mem_irqRows_of_irqRoute hroute) rfl

/-- Settles O36, from the constraints on the tables. -/
theorem interruptRequestLinesFollowTheirRoute : Obligations.InterruptRequestLinesFollowTheirRoute := by
  intro s l hwf
  obtain ⟨hline2, -, -⟩ := (board_wf_iff s.board).mp hwf
  refine ⟨exec_irq_of_route hline2 l, fun n dst hroute => ⟨?_, exec_irq_of_route hroute l⟩, ?_⟩
  · rintro rfl
    exact irqRoute_ne_cascadeInput hwf n hroute
  · rintro src _ rfl
    exact ⟨onboardRoute_ne_cascadeInput hwf src, fun n => irqRoute_ne_onboardRoute hwf n src, exec_obirq src l s⟩

end Sys2Proof.Machine
end

section
/-! What an operation does not look at: the relays and page ports the owner (42_dma_arbiter.md section 5), everything but
its own ports the readback store (10_state.md R23). -/

namespace Sys2Proof.Machine

/-! ## The owner -/

theorem State.readCell_owner (c : PageCell) (s : State) (o : Owner) :
    ({ s with owner := o }).readCell c = s.readCell c := by
  cases c <;> rfl

theorem State.writeCell_with_owner (c : PageCell) (d : Byte) (s : State) (o : Owner) :
    ({ s with owner := o }).writeCell c d = { s.writeCell c d with owner := o } := by
  cases c <;> rfl

/-- Settles O33, form by form. -/
theorem relaysAndPagePortsIgnoreTheOwner : Obligations.RelaysAndPagePortsIgnoreTheOwner := by
  rintro i s o (⟨c, rfl⟩ | ⟨c, d, rfl⟩ | ⟨j, rfl⟩ | ⟨j, d, rfl⟩ | ⟨p, rfl⟩ | ⟨p, d, rfl⟩ | ⟨p, rfl⟩ | ⟨p, d, rfl⟩)
  · exact ⟨_, rfl, rfl⟩
  · exact ⟨_, rfl, rfl⟩
  · exact ⟨_, rfl, rfl⟩
  · exact ⟨_, rfl, rfl⟩
  · exact ⟨_, exec_iorPageSel p s, by rw [exec_iorPageSel, State.readCell_owner]⟩
  · exact ⟨_, exec_iowPageSel p d s, by rw [exec_iowPageSel, State.writeCell_with_owner]⟩
  · exact ⟨_, exec_iorPageGen p s, rfl⟩
  · exact ⟨_, exec_iowPageGen p d s, rfl⟩

/-! ## The readback store -/

/-- The same state with other contents of the readback store. -/
def State.withReadback (g : Vector Byte 16) (s : State) : State := { s with gen := g }

section Readback

variable (g : Vector Byte 16)

@[simp] theorem State.withReadback_owner (s : State) : (s.withReadback g).owner = s.owner := rfl

theorem State.readCell_withReadback {c : PageCell} (hc : ∀ k, c ≠ .generic k) (s : State) :
    (s.withReadback g).readCell c = s.readCell c := by
  cases c with
  | byteSet | wordSet => rfl
  | generic k => exact absurd rfl (hc k)

theorem State.writeCell_withReadback {c : PageCell} (hc : ∀ k, c ≠ .generic k) (d : Byte) (s : State) :
    (s.withReadback g).writeCell c d = (s.writeCell c d).withReadback g := by
  cases c with
  | byteSet | wordSet => rfl
  | generic k => exact absurd rfl (hc k)

theorem State.forwardEopToOwner_withReadback (l : Bool) (s : State) :
    (s.withReadback g).forwardEopToOwner l = (s.forwardEopToOwner l).withReadback g := by
  rw [State.forwardEopToOwner, State.forwardEopToOwner, State.withReadback_owner]
  cases s.owner <;> rfl

theorem State.forwardEopIf_withReadback (flag : Bool) (c : Fin 8) (l : Bool) (s : State) :
    (s.withReadback g).forwardEopIf flag c l = (s.forwardEopIf flag c l).withReadback g := by
  cases flag <;> rfl

theorem State.grant_withReadback (c : Fin 8) (s : State) :
    (s.withReadback g).grant c = (s.grant c).withReadback g :=
  State.forwardEopIf_withReadback g (s.eopFlag c) c true { s with owner := .owned c }

theorem State.release_withReadback (c : Fin 8) (s : State) :
    (s.withReadback g).release c = (s.release c).withReadback g := by
  rw [State.release, State.release, State.withReadback_owner]
  split
  next => exact State.forwardEopIf_withReadback g (s.eopFlag c) c false { s with owner := .idle }
  next => rfl

/-- A memory-side transfer looks at the owner, the page registers, the latch and memory. -/
theorem exec_memoryTransfer_withReadback {i : Instr} {s t : State}
    (hi : (∃ a, i = .dmard8 a) ∨ (∃ a d, i = .dmawr8 a d) ∨ (∃ a, i = .dmard16 a) ∨ ∃ a d, i = .dmawr16 a d)
    (h : exec i s = .next t) : exec i (s.withReadback g) = .next (t.withReadback g) := by
  rcases hi with ⟨a, rfl⟩ | ⟨a, d, rfl⟩ | ⟨a, rfl⟩ | ⟨a, d, rfl⟩ <;>
    simp only [exec, execDmard8, execDmawr8, execDmard16, execDmawr16, State.withReadback_owner] at h ⊢ <;>
    cases howner : s.owner with
    | idle =>
      simp only [howner] at h ⊢
      cases h
      rfl
    | owned c =>
      simp only [howner] at h ⊢
      cases hc : isByteChannel c <;> rw [hc] at h <;> cases h
      rfl

/-- With the readback store replaced, every operation but its own ports' and the word accesses does the same. -/
theorem exec_withReadback {i : Instr} {s t : State} (hi : i.wf = true) (h : exec i s = .next t)
    (hread : ∀ p, i ≠ .iorPageGen p) (hwrite : ∀ p d, i ≠ .iowPageGen p d) (hread16 : ∀ p, i ≠ .ior16 p)
    (hwrite16 : ∀ p w, i ≠ .iow16 p w) : exec i (s.withReadback g) = .next (t.withReadback g) := by
  cases i
  case iorPageGen p => exact absurd rfl (hread p)
  case iowPageGen p d => exact absurd rfl (hwrite p d)
  case ior16 p => exact absurd rfl (hread16 p)
  case iow16 p w => exact absurd rfl (hwrite16 p w)
  case iorPageSel p =>
    obtain ⟨-, hk⟩ := Bool.and_eq_true_iff.1 hi
    cases h
    rw [exec_iorPageSel, State.readCell_withReadback g (pageCell_ne_generic hk)]
    rfl
  case iowPageSel p d =>
    obtain ⟨-, hk⟩ := Bool.and_eq_true_iff.1 hi
    cases h
    rw [exec_iowPageSel, State.writeCell_withReadback g (pageCell_ne_generic hk)]
    rfl
  case dmard8 | dmawr8 | dmard16 | dmawr16 => exact exec_memoryTransfer_withReadback g (by simp) h
  case dack c l =>
    cases l <;> cases h
    case false => rw [exec_dack_grant, State.grant_withReadback]; rfl
    case true => rw [exec_dack_release, State.release_withReadback]; rfl
  case eop1 l =>
    cases h
    exact congrArg Host.Outcome.next (State.forwardEopToOwner_withReadback g l { s with eop1 := l })
  case eop2 l =>
    cases h
    exact congrArg Host.Outcome.next (State.forwardEopToOwner_withReadback g l { s with eop2 := l })
  case slaveack n =>
    by_cases hn : n = cascadeIr
    · subst hn
      cases h
      rfl
    · rw [exec_slaveack_other hn] at h ⊢
      cases h
      rfl
  case irq n l =>
    obtain ⟨dst, hroute, rfl⟩ := exec_irq_next h
    exact exec_irq_of_route (s := s.withReadback g) hroute l
  case a20mask l =>
    have hreg : s.a20Registered = true := admissible_of_exec h
    rw [exec_a20mask_registered l hreg] at h
    cases h
    exact exec_a20mask_registered (s := s.withReadback g) l hreg
  all_goals
    cases h
    rfl

end Readback

/-- Settles O16: no other operation writes the store (O58) or looks at it. -/
theorem readbackStoreReachesNothing : Obligations.ReadbackStoreReachesNothing := by
  intro i s t g hi h hread hwrite hread16 hwrite16
  obtain ⟨-, -, hgen, -⟩ := eachFieldHasItsOwnWriters i s t hi hwrite16 h
  refine ⟨?_, exec_withReadback g hi h hread hwrite hread16 hwrite16⟩
  by_contra hne
  obtain ⟨p, d, rfl⟩ := hgen hne
  exact hwrite p d rfl

end Sys2Proof.Machine
end
